-- ==== Sys2Proof/Word.lean ====
section
/-! DEFINITION. The plain value types of the GFRS engine (00_scope.md rules R7, R9, R10). -/

namespace Sys2Proof

/-- A host bus word or a command word: DBITS = 32 bits (R7, R9). -/
abbrev Word := BitVec 32

/-- A scalar register's value or a stored coefficient: W = 16 bits (R7, R21, R25). -/
abbrev Elem := BitVec 16

/-- A byte of the host bus or of ERRCODE (R33, R63). -/
abbrev Byte := BitVec 8

/-- A host byte offset from the engine's base address: ABITS = 24 bits (R7, R60). -/
abbrev Addr := BitVec 24

/-- The number of a scalar register, S0..S15 (R21). -/
abbrev SReg := Fin 16

/-- The number of a polynomial register, P0..P7 (R25). -/
abbrev PReg := Fin 8

/-- The content of a polynomial register: a finite sequence of 16-bit values (R10, R11, R25). -/
abbrev Poly := List Elem

end Sys2Proof
end

