-- ==== Sys2Proof/Syntax.lean ====
section
/-! DEFINITION. The 30 commands of 30_encoding.md rule R95, one constructor per row of spec/opcode_table.json, operands in
the order D, A, B, C of rule R99. -/

namespace Sys2Proof

/-- A command of the engine (R15, R95): its opcode and the operands its format uses (R92). A scalar operand is any of
S0..S15 and a polynomial operand any of P0..P7 (R93), so a must-be-zero field has no place here. -/
inductive Instr where
  /-- NOP (R120). -/
  | nop
  /-- BUILD (R121). -/
  | build
  /-- LI rd, imm16 (R148). -/
  | li (rd : SReg) (imm : Elem)
  /-- GADD rd, rs1, rs2 (R149). -/
  | gadd (rd rs1 rs2 : SReg)
  /-- GMUL rd, rs1, rs2 (R150). -/
  | gmul (rd rs1 rs2 : SReg)
  /-- GDIV rd, rs1 (dividend), rs2 (divisor) (R151). -/
  | gdiv (rd rs1 rs2 : SReg)
  /-- GINV rd, rs1 (R152). -/
  | ginv (rd rs1 : SReg)
  /-- GPOW rd, rs1 (base), rs2 (exponent) (R153). -/
  | gpow (rd rs1 rs2 : SReg)
  /-- GEXP rd, rs1 (exponent) (R154). -/
  | gexp (rd rs1 : SReg)
  /-- GLOG rd, rs1 (R155). -/
  | glog (rd rs1 : SReg)
  /-- PGET rd, pa, rs2 (index) (R171). -/
  | pget (rd : SReg) (pa : PReg) (rs2 : SReg)
  /-- PPUT pd, rs1 (index), rs2 (value) (R172). -/
  | pput (pd : PReg) (rs1 rs2 : SReg)
  /-- PLEN rd, pa (R173). -/
  | plen (rd : SReg) (pa : PReg)
  /-- PSETLEN pd, rs1 (length) (R174). -/
  | psetlen (pd : PReg) (rs1 : SReg)
  /-- PMOV pd, pa (R175). -/
  | pmov (pd pa : PReg)
  /-- PREV pd, pa (R176). -/
  | prev (pd pa : PReg)
  /-- PSTRIP pd, pa (R177). -/
  | pstrip (pd pa : PReg)
  /-- PEVAL rd, pa, rs2 (x) (R206). -/
  | peval (rd : SReg) (pa : PReg) (rs2 : SReg)
  /-- PEVALA rd, pa, rs2 (x) (R207). -/
  | pevala (rd : SReg) (pa : PReg) (rs2 : SReg)
  /-- PEVALC rd, pa, rs2 (x), rs3 (prior) (R208). -/
  | pevalc (rd : SReg) (pa : PReg) (rs2 rs3 : SReg)
  /-- PMUL pd, pa, pb (R209). -/
  | pmul (pd pa pb : PReg)
  /-- PDIV pd (remainder), pa (numerator), pb (denominator), pc (quotient) (R210). -/
  | pdiv (pd pa pb pc : PReg)
  /-- PADDSB pd, pa, pb, rs3 (scale) (R211). -/
  | paddsb (pd pa pb : PReg) (rs3 : SReg)
  /-- RSGEN rs1 (degree) (R232). -/
  | rsgen (rs1 : SReg)
  /-- RSENC pd (ECC), pa (message) (R234). -/
  | rsenc (pd pa : PReg)
  /-- RSSYN pd (syndromes), pa (message), pb (ECC) (R251). -/
  | rssyn (pd pa pb : PReg)
  /-- RSBM pd (locator), pa (syndromes) (R253). -/
  | rsbm (pd pa : PReg)
  /-- RSCHIEN pd (locations), pa (locator), rs2 (block length) (R256). -/
  | rschien (pd pa : PReg) (rs2 : SReg)
  /-- RSFORNEY pd (message), pa (syndromes), pb (locator), pc (locations) (R264). -/
  | rsforney (pd pa pb pc : PReg)
  /-- RSDEC pd (message), pa (ECC) (R266). -/
  | rsdec (pd pa : PReg)
deriving DecidableEq, Repr

end Sys2Proof
end

