-- ==== Sys2Proof/WellFormed.lean ====
section
/-! DEFINITION. Which commands have a legal command word (30_encoding.md rule R96). Operand ranges are in the operand types,
so the one check left is (e): PDIV's two destinations differ. -/

namespace Sys2Proof

/-- The command has a legal word (R96): every command, but a PDIV whose remainder and quotient destinations coincide. -/
def Instr.wf : Instr → Bool
  | .pdiv pd _ _ pc => decide (pd ≠ pc)
  | .nop | .build | .li _ _ | .gadd _ _ _ | .gmul _ _ _ | .gdiv _ _ _ | .ginv _ _ | .gpow _ _ _ | .gexp _ _ | .glog _ _
  | .pget _ _ _ | .pput _ _ _ | .plen _ _ | .psetlen _ _ | .pmov _ _ | .prev _ _ | .pstrip _ _
  | .peval _ _ _ | .pevala _ _ _ | .pevalc _ _ _ _ | .pmul _ _ _ | .paddsb _ _ _ _
  | .rsgen _ | .rsenc _ _ | .rssyn _ _ _ | .rsbm _ _ | .rschien _ _ _ | .rsforney _ _ _ _ | .rsdec _ _ => true

end Sys2Proof
end

