-- ==== Sys2Proof/Decode.lean ====
section
/-! DEFINITION. Decoding and encoding of the 32-bit command word (30_encoding.md rules R90 to R98). -/

namespace Sys2Proof

/-- Why a command word is illegal (R96). Every one of them is the command error E_ILLEGAL when the engine performs the word. -/
inductive Reject where
  /-- (a) OP is unassigned. -/
  | unassignedOpcode
  /-- (b), (c) a field its format marks 0, or Z, is nonzero. -/
  | mustBeZero
  /-- (d) a polynomial field has bit 3 set. -/
  | polyField
  /-- (e) PDIV with D = C. -/
  | pdivSameDestination
deriving DecidableEq, Repr

/-! ## The fields (R91) -/

/-- OP, bits [31:24] (R91). -/
def fieldOP (w : Word) : BitVec 8 := w.extractLsb' 24 8
/-- D, bits [23:20] (R91). -/
def fieldD (w : Word) : BitVec 4 := w.extractLsb' 20 4
/-- A, bits [19:16] (R91). -/
def fieldA (w : Word) : BitVec 4 := w.extractLsb' 16 4
/-- B, bits [15:12] (R91). -/
def fieldB (w : Word) : BitVec 4 := w.extractLsb' 12 4
/-- C, bits [11:8] (R91). -/
def fieldC (w : Word) : BitVec 4 := w.extractLsb' 8 4
/-- Z, bits [7:0] (R91). -/
def fieldZ (w : Word) : BitVec 8 := w.extractLsb' 0 8
/-- imm16, bits [15:0] of format I (R91, R94). -/
def fieldImm (w : Word) : Elem := w.extractLsb' 0 16

/-- A field used as s selects scalar register S(field) (R93). -/
def sregOf (f : BitVec 4) : SReg := Fin.ofNat 16 f.toNat

/-- A field used as p selects polynomial register P(field[2:0]) (R93). -/
def pregOf (f : BitVec 4) : PReg := Fin.ofNat 8 f.toNat

/-! ## The checks of R96 -/

/-- A field that must be zero (R93, R96(b), (c)). -/
def needZero {n : Nat} (f : BitVec n) (k : Except Reject Instr) : Except Reject Instr :=
  if f = 0 then k else .error .mustBeZero

/-- A field used as p must have bit 3 = 0 (R93, R96(d)). -/
def needPoly (f : BitVec 4) (k : PReg → Except Reject Instr) : Except Reject Instr :=
  if f.getLsbD 3 then .error .polyField else k (pregOf f)

/-! ## The formats of R92, one decoder each. Z is checked first, then the fields in the order D, A, B, C, as R96 does. -/

/-- Format Z: no operand. -/
def fmtZ (w : Word) (i : Instr) : Except Reject Instr :=
  needZero (fieldZ w) <| needZero (fieldD w) <| needZero (fieldA w) <| needZero (fieldB w) <| needZero (fieldC w) <| .ok i

/-- Format I: rd and imm16; only A must be zero. -/
def fmtI (w : Word) (k : SReg → Elem → Instr) : Except Reject Instr :=
  needZero (fieldA w) <| .ok (k (sregOf (fieldD w)) (fieldImm w))

/-- Format R2: rd, rs1. -/
def fmtR2 (w : Word) (k : SReg → SReg → Instr) : Except Reject Instr :=
  needZero (fieldZ w) <| needZero (fieldB w) <| needZero (fieldC w) <| .ok (k (sregOf (fieldD w)) (sregOf (fieldA w)))

/-- Format R3: rd, rs1, rs2. -/
def fmtR3 (w : Word) (k : SReg → SReg → SReg → Instr) : Except Reject Instr :=
  needZero (fieldZ w) <| needZero (fieldC w) <| .ok (k (sregOf (fieldD w)) (sregOf (fieldA w)) (sregOf (fieldB w)))

/-- Format XR: rs1. -/
def fmtXR (w : Word) (k : SReg → Instr) : Except Reject Instr :=
  needZero (fieldZ w) <| needZero (fieldD w) <| needZero (fieldB w) <| needZero (fieldC w) <| .ok (k (sregOf (fieldA w)))

/-- Format RP: rd, pa. -/
def fmtRP (w : Word) (k : SReg → PReg → Instr) : Except Reject Instr :=
  needZero (fieldZ w) <| needPoly (fieldA w) fun pa => needZero (fieldB w) <| needZero (fieldC w) <|
    .ok (k (sregOf (fieldD w)) pa)

/-- Format RPR: rd, pa, rs2. -/
def fmtRPR (w : Word) (k : SReg → PReg → SReg → Instr) : Except Reject Instr :=
  needZero (fieldZ w) <| needPoly (fieldA w) fun pa => needZero (fieldC w) <|
    .ok (k (sregOf (fieldD w)) pa (sregOf (fieldB w)))

/-- Format RPRR: rd, pa, rs2, rs3. -/
def fmtRPRR (w : Word) (k : SReg → PReg → SReg → SReg → Instr) : Except Reject Instr :=
  needZero (fieldZ w) <| needPoly (fieldA w) fun pa =>
    .ok (k (sregOf (fieldD w)) pa (sregOf (fieldB w)) (sregOf (fieldC w)))

/-- Format PR: pd, rs1. -/
def fmtPR (w : Word) (k : PReg → SReg → Instr) : Except Reject Instr :=
  needZero (fieldZ w) <| needPoly (fieldD w) fun pd => needZero (fieldB w) <| needZero (fieldC w) <|
    .ok (k pd (sregOf (fieldA w)))

/-- Format PRR: pd, rs1, rs2. -/
def fmtPRR (w : Word) (k : PReg → SReg → SReg → Instr) : Except Reject Instr :=
  needZero (fieldZ w) <| needPoly (fieldD w) fun pd => needZero (fieldC w) <|
    .ok (k pd (sregOf (fieldA w)) (sregOf (fieldB w)))

/-- Format PP: pd, pa. -/
def fmtPP (w : Word) (k : PReg → PReg → Instr) : Except Reject Instr :=
  needZero (fieldZ w) <| needPoly (fieldD w) fun pd => needPoly (fieldA w) fun pa =>
    needZero (fieldB w) <| needZero (fieldC w) <| .ok (k pd pa)

/-- Format PPP: pd, pa, pb. -/
def fmtPPP (w : Word) (k : PReg → PReg → PReg → Instr) : Except Reject Instr :=
  needZero (fieldZ w) <| needPoly (fieldD w) fun pd => needPoly (fieldA w) fun pa => needPoly (fieldB w) fun pb =>
    needZero (fieldC w) <| .ok (k pd pa pb)

/-- Format PPR: pd, pa, rs2. -/
def fmtPPR (w : Word) (k : PReg → PReg → SReg → Instr) : Except Reject Instr :=
  needZero (fieldZ w) <| needPoly (fieldD w) fun pd => needPoly (fieldA w) fun pa =>
    needZero (fieldC w) <| .ok (k pd pa (sregOf (fieldB w)))

/-- Format PPPR: pd, pa, pb, rs3. -/
def fmtPPPR (w : Word) (k : PReg → PReg → PReg → SReg → Instr) : Except Reject Instr :=
  needZero (fieldZ w) <| needPoly (fieldD w) fun pd => needPoly (fieldA w) fun pa => needPoly (fieldB w) fun pb =>
    .ok (k pd pa pb (sregOf (fieldC w)))

/-- Format PPPP: pd, pa, pb, pc. -/
def fmtPPPP (w : Word) (k : PReg → PReg → PReg → PReg → Instr) : Except Reject Instr :=
  needZero (fieldZ w) <| needPoly (fieldD w) fun pd => needPoly (fieldA w) fun pa => needPoly (fieldB w) fun pb =>
    needPoly (fieldC w) fun pc => .ok (k pd pa pb pc)

/-- R96(e): a PDIV whose two destinations coincide is illegal. -/
def needWf (r : Except Reject Instr) : Except Reject Instr :=
  match r with
  | .ok i => if i.wf then .ok i else .error .pdivSameDestination
  | .error e => .error e

/-- The decoder of R96 over the opcode map of R95: total on every 32-bit word. -/
def decode (w : Word) : Except Reject Instr :=
  match (fieldOP w).toNat with
  | 0x01 => fmtZ w .nop
  | 0x02 => fmtZ w .build
  | 0x10 => fmtI w .li
  | 0x11 => fmtR3 w .gadd
  | 0x12 => fmtR3 w .gmul
  | 0x13 => fmtR3 w .gdiv
  | 0x14 => fmtR2 w .ginv
  | 0x15 => fmtR3 w .gpow
  | 0x16 => fmtR2 w .gexp
  | 0x17 => fmtR2 w .glog
  | 0x20 => fmtRPR w .pget
  | 0x21 => fmtPRR w .pput
  | 0x22 => fmtRP w .plen
  | 0x23 => fmtPR w .psetlen
  | 0x24 => fmtPP w .pmov
  | 0x25 => fmtPP w .prev
  | 0x26 => fmtPP w .pstrip
  | 0x30 => fmtRPR w .peval
  | 0x31 => fmtRPR w .pevala
  | 0x32 => fmtRPRR w .pevalc
  | 0x33 => fmtPPP w .pmul
  | 0x34 => needWf (fmtPPPP w .pdiv)
  | 0x35 => fmtPPPR w .paddsb
  | 0x40 => fmtXR w .rsgen
  | 0x41 => fmtPP w .rsenc
  | 0x42 => fmtPPP w .rssyn
  | 0x43 => fmtPP w .rsbm
  | 0x44 => fmtPPR w .rschien
  | 0x45 => fmtPPPP w .rsforney
  | 0x46 => fmtPP w .rsdec
  | _ => .error .unassignedOpcode

/-! ## The encoder -/

/-- The opcode of a command (R95). -/
def Instr.opcode : Instr → BitVec 8
  | .nop => 0x01
  | .build => 0x02
  | .li _ _ => 0x10
  | .gadd _ _ _ => 0x11
  | .gmul _ _ _ => 0x12
  | .gdiv _ _ _ => 0x13
  | .ginv _ _ => 0x14
  | .gpow _ _ _ => 0x15
  | .gexp _ _ => 0x16
  | .glog _ _ => 0x17
  | .pget _ _ _ => 0x20
  | .pput _ _ _ => 0x21
  | .plen _ _ => 0x22
  | .psetlen _ _ => 0x23
  | .pmov _ _ => 0x24
  | .prev _ _ => 0x25
  | .pstrip _ _ => 0x26
  | .peval _ _ _ => 0x30
  | .pevala _ _ _ => 0x31
  | .pevalc _ _ _ _ => 0x32
  | .pmul _ _ _ => 0x33
  | .pdiv _ _ _ _ => 0x34
  | .paddsb _ _ _ _ => 0x35
  | .rsgen _ => 0x40
  | .rsenc _ _ => 0x41
  | .rssyn _ _ _ => 0x42
  | .rsbm _ _ => 0x43
  | .rschien _ _ _ => 0x44
  | .rsforney _ _ _ _ => 0x45
  | .rsdec _ _ => 0x46

/-- A scalar register's number as a field (R93). -/
def sbits (r : SReg) : BitVec 4 := BitVec.ofNat 4 r.val

/-- A polynomial register's number as a field, bit 3 clear (R93). -/
def pbits (r : PReg) : BitVec 4 := BitVec.ofNat 4 r.val

/-- A word of opcode op and fields D, A, B, C, with Z = 0 (R91). -/
def pack (op : BitVec 8) (d a b c : BitVec 4) : Word :=
  op ++ (d ++ (a ++ (b ++ (c ++ (0 : BitVec 8)))))

/-- A word of format I: opcode, rd, A = 0 and imm16 (R91, R92). -/
def packI (op : BitVec 8) (d : BitVec 4) (imm : Elem) : Word :=
  op ++ (d ++ ((0 : BitVec 4) ++ imm))

/-- The command word of a command (R91 to R95). -/
def encode (i : Instr) : Word :=
  match i with
  | .nop | .build => pack i.opcode 0 0 0 0
  | .li rd imm => packI i.opcode (sbits rd) imm
  | .gadd rd rs1 rs2 | .gmul rd rs1 rs2 | .gdiv rd rs1 rs2 | .gpow rd rs1 rs2 =>
    pack i.opcode (sbits rd) (sbits rs1) (sbits rs2) 0
  | .ginv rd rs1 | .gexp rd rs1 | .glog rd rs1 => pack i.opcode (sbits rd) (sbits rs1) 0 0
  | .pget rd pa rs2 | .peval rd pa rs2 | .pevala rd pa rs2 => pack i.opcode (sbits rd) (pbits pa) (sbits rs2) 0
  | .pevalc rd pa rs2 rs3 => pack i.opcode (sbits rd) (pbits pa) (sbits rs2) (sbits rs3)
  | .plen rd pa => pack i.opcode (sbits rd) (pbits pa) 0 0
  | .pput pd rs1 rs2 => pack i.opcode (pbits pd) (sbits rs1) (sbits rs2) 0
  | .psetlen pd rs1 => pack i.opcode (pbits pd) (sbits rs1) 0 0
  | .pmov pd pa | .prev pd pa | .pstrip pd pa | .rsenc pd pa | .rsbm pd pa | .rsdec pd pa =>
    pack i.opcode (pbits pd) (pbits pa) 0 0
  | .pmul pd pa pb | .rssyn pd pa pb => pack i.opcode (pbits pd) (pbits pa) (pbits pb) 0
  | .pdiv pd pa pb pc | .rsforney pd pa pb pc => pack i.opcode (pbits pd) (pbits pa) (pbits pb) (pbits pc)
  | .paddsb pd pa pb rs3 => pack i.opcode (pbits pd) (pbits pa) (pbits pb) (sbits rs3)
  | .rsgen rs1 => pack i.opcode 0 (sbits rs1) 0 0
  | .rschien pd pa rs2 => pack i.opcode (pbits pd) (pbits pa) (sbits rs2) 0

/-- The command the decoder reads from a table row's word: bits above nbits are 0. A command word is one 32-bit value
(R90), so it needs no byte order (R63). -/
def decodeTableWord (nbits w : Nat) : Option Instr :=
  match decode (BitVec.ofNat 32 (w % 2 ^ nbits)) with
  | .ok i => some i
  | .error _ => none

end Sys2Proof
end

