-- ==== Sys2Proof/Config.lean ====
section
/-! DEFINITION. What the hardware fixes (00_scope.md rule R7) and the one free value the spec leaves (70_reset_and_hazards.md
rule R326). -/

namespace Sys2Proof

/-- MMAX, the largest field size BUILD accepts (R7, R8). -/
def Config.mmax : Nat := 16

/-- PCAP, the largest length of a polynomial register, of G and of any command result (R7, D9). -/
def Config.pcap : Nat := 65536

/-- The ID register's constant: ASCII "GF", revision 1, and MMAX in bits [7:0] (R31). -/
def Config.idWord : Word := BitVec.ofNat 32 (0x47460100 + Config.mmax)

/-- FREE VALUE (log 4). The word the n-th host read of an operand register or window returns while BUSY = 1: "an
unspecified 32-bit value (a draw: a free input, under no law)" (R326). It has no body, so no proof can know it. -/
opaque Config.busyRead : Nat → Word

end Sys2Proof
end

