-- ==== Sys2Proof/Machine/State.lean ====
section
/-! DEFINITION. The architectural state of the engine (10_state.md rule R20), the moves its environment makes
(70_reset_and_hazards.md rule R328), and the reset state (10_state.md rule R45). -/

namespace Sys2Proof.Machine

/-- The error codes of R285. -/
inductive ErrCode where
  /-- 0x01 E_ILLEGAL: the command word is illegal (R96). -/
  | illegal
  /-- 0x02 E_NOTREADY: the command requires READY and READY = 0 (R41). -/
  | notReady
  /-- 0x03 E_DOMAIN: inverse, division or logarithm of zero. -/
  | domain
  /-- 0x04 E_RANGE: a value read as a field element is ≥ 2^M, or a Forney location is ≥ N. -/
  | range
  /-- 0x05 E_INDEX: an element index is not below the register's length. -/
  | index
  /-- 0x06 E_LENGTH: a length limit is exceeded, or an empty Forney locator. -/
  | length
  /-- 0x07 E_NOGEN: the command needs the generator and GVALID = 0. -/
  | noGen
  /-- 0x08 E_MISMATCH: the ECC register's length differs from GDEG. -/
  | mismatch
  /-- 0x09 E_CONFIG: BUILD found the staged configuration invalid (R122). -/
  | config
deriving DecidableEq, Repr

/-- The width of a host access: 32-bit words are legal, 8 and 16 bits are access errors (R62). -/
inductive AccessSize where
  | byte
  | half
  | word
deriving DecidableEq, Repr

/-- One host bus access (R12, R62): MemRead or MemWrite of the given width at a byte offset. -/
inductive Access where
  | read (size : AccessSize) (addr : Addr)
  | write (size : AccessSize) (addr : Addr) (data : Word)
deriving DecidableEq, Repr

/-- What a legal word address selects: the rows of the register map R30. -/
inductive Target where
  | id
  | ctrl
  | status
  | cmd
  | cfgM
  | cfgPoly
  | cfgBase
  | actCfg
  | actPoly
  | errcmd
  | errcount
  | gdeg
  | cap
  /-- 0x034–0x03C, 0x0A0–0x03FFFC, 0x300000–0xFFFFFC: unmapped (R30, R67). -/
  | reserved
  /-- Si (R47). -/
  | sreg (i : SReg)
  /-- PLENk (R46). -/
  | plen (k : PReg)
  /-- EXP[i] (R65). -/
  | expWin (i : Nat)
  /-- LOG[i] (R65). -/
  | logWin (i : Nat)
  /-- G[i] (R66). -/
  | gWin (i : Nat)
  /-- Pk[i] (R64). -/
  | pWin (k : PReg) (i : Nat)
deriving DecidableEq, Repr

/-- A move of R328: (a) a host access, (b) the execution unit's turn, (c) a power-on reset. -/
inductive Move where
  /-- (a) The host's next bus access. -/
  | access (a : Access)
  /-- (b) The execution unit's turn: it completes the command in execution; with BUSY = 0 the turn passes unused. -/
  | engine
  /-- (c) Power-on reset (R320a). -/
  | powerOn
deriving DecidableEq, Repr

/-- The state: one field per row of R20, then four fields of the model's own (log 1, 3, 4, 14). -/
structure State where
  /-- S0..S15 (R21); S0's slot is never read or written (State.readS, State.writeS). -/
  sregs : Vector Elem 16
  /-- P0..P7, each with its length (R25). -/
  pregs : Vector Poly 8
  /-- G, the generator polynomial, descending (R27). -/
  gpoly : Poly
  /-- GVALID (R27). -/
  gvalid : Bool
  /-- GDEG (R27). -/
  gdeg : BitVec 16
  /-- F_OK (R28). -/
  fOk : Bool
  /-- ERRCOUNT (R29). -/
  errcount : BitVec 16
  /-- READY (R41). -/
  ready : Bool
  /-- M_act (R41). -/
  mAct : BitVec 5
  /-- POLY_act (R41). -/
  polyAct : BitVec 17
  /-- BASE_act (R41). -/
  baseAct : BitVec 1
  /-- EXP[0..Q) (R40); no tables when READY = 0. -/
  expTable : List Elem
  /-- LOG[0..Q] (R40); no tables when READY = 0. -/
  logTable : List Elem
  /-- CFG_M (R34). -/
  cfgM : BitVec 5
  /-- CFG_POLY (R35). -/
  cfgPoly : BitVec 17
  /-- CFG_BASE (R36). -/
  cfgBase : BitVec 2
  /-- IRQ_EN (R32). -/
  irqEn : Bool
  /-- DONE (R33, R280). -/
  done : Bool
  /-- ERR (R33, R281). -/
  err : Bool
  /-- ERROVF (R33, R283). -/
  errovf : Bool
  /-- ACCERR (R33, R293). -/
  accerr : Bool
  /-- ERRCODE (R33, R285). -/
  errcode : Byte
  /-- ERRCMD (R39, R281). -/
  errcmd : Word
  /-- BUSY (R42). -/
  busy : Bool
  /-- INFLIGHT, meaningful when BUSY = 1 (R42). -/
  inflight : Word
  /-- MODEL'S OWN (log 1): the moves still to be made, first one first (R328: any enabled step may be taken next). -/
  agenda : List Move
  /-- MODEL'S OWN (log 3): the words the host's reads have returned, newest first. -/
  replies : List Word
  /-- MODEL'S OWN (log 4): how many unspecified busy reads (R326) have been made. -/
  draws : Nat
  /-- MODEL'S OWN (log 14): a CMD write has been accepted and BUSY = 0 has not been read since, so the run is not over
  (R329). -/
  unpolled : Bool
deriving DecidableEq, Repr

/-- The machine stops with a fault: NEVER. Every error of the spec is recorded in STATUS and the engine goes on (R284,
R293), so no reason exists and the type has no constructor. Safe: nothing is cut short. -/
inductive Fault
deriving DecidableEq, Repr

/-- Why the model refuses an instruction. -/
inductive Refusal where
  /-- An instruction that has no meaning yet: raised by exec's arm for it and by nothing else (safe). No arm raises it now. -/
  | notModelled (mnemonic : String)
deriving DecidableEq, Repr

/-- The state after reset, every value from R45; the last four are the model's own (log 1, 3, 4, 14). -/
def State.reset : State where
  sregs := Vector.replicate 16 0
  pregs := Vector.replicate 8 []
  gpoly := []
  gvalid := false
  gdeg := 0
  fOk := false
  errcount := 0
  ready := false
  mAct := 0
  polyAct := 0
  baseAct := 0
  expTable := []
  logTable := []
  cfgM := 8
  cfgPoly := 0x11D
  cfgBase := 0
  irqEn := false
  done := false
  err := false
  errovf := false
  accerr := false
  errcode := 0
  errcmd := 0
  busy := false
  inflight := 0
  agenda := []
  replies := []
  draws := 0
  unpolled := false

end Sys2Proof.Machine
end

