-- ==== Sys2Proof/Machine/Flags.lean ====
section
/-! DEFINITION. STATUS, CTRL and the interrupt level: how the flags are read, cleared and combined (10_state.md rules R32,
R33; 60_exceptions.md rules R284, R285, R288, R289). -/

namespace Sys2Proof.Machine

/-- The ERRCODE value of an error (R285). -/
def ErrCode.code : ErrCode → Byte
  | .illegal => 0x01
  | .notReady => 0x02
  | .domain => 0x03
  | .range => 0x04
  | .index => 0x05
  | .length => 0x06
  | .noGen => 0x07
  | .mismatch => 0x08
  | .config => 0x09

/-- The STATUS word (R33): reserved [31:16], ERRCODE [15:8], ERROVF, GVALID, ACCERR, OK, ERR, DONE, READY, BUSY. -/
def State.statusWord (s : State) : Word :=
  (0 : BitVec 16) ++ (s.errcode ++ (BitVec.ofBool s.errovf ++ (BitVec.ofBool s.gvalid ++ (BitVec.ofBool s.accerr ++
    (BitVec.ofBool s.fOk ++ (BitVec.ofBool s.err ++ (BitVec.ofBool s.done ++ (BitVec.ofBool s.ready ++
      BitVec.ofBool s.busy))))))))

/-- The CTRL word: IRQ_EN in bit 0; SOFT_RESET reads 0 (R32). -/
def State.ctrlWord (s : State) : Word := (BitVec.ofBool s.irqEn).setWidth 32

/-- The interrupt output, a level: DONE ∧ IRQ_EN (R43, R288). -/
def State.irq (s : State) : Bool := s.done && s.irqEn

/-- A STATUS write (R33, R284, R289): W1C for DONE (2), ERR (3), ACCERR (5) and ERROVF (7); clearing ERR also clears
ERRCODE and ERRCMD. This is the acknowledgement of an error, the engine's only "return" (R292). -/
def State.writeStatus (s : State) (v : Word) : State :=
  { s with
    done := s.done && !v.getLsbD 2
    err := s.err && !v.getLsbD 3
    errcode := if v.getLsbD 3 then 0 else s.errcode
    errcmd := if v.getLsbD 3 then 0 else s.errcmd
    accerr := s.accerr && !v.getLsbD 5
    errovf := s.errovf && !v.getLsbD 7 }

/-- An access error: ACCERR ← 1 and nothing else (R293). -/
def State.accessError (s : State) : State := { s with accerr := true }

end Sys2Proof.Machine
end

