-- ==== Sys2Proof/Machine/Galois.lean ====
section
/-! DEFINITION. The field GF(2^m): configuration check, tables and field functions (40_control.md rules R122, R123;
41_field.md rules R141 to R146). -/

namespace Sys2Proof.Machine

/-- The active field as a command sees it: M, and the EXP and LOG tables (R40, R41). -/
structure Gf where
  /-- M. -/
  m : Nat
  /-- EXP[0..Q). -/
  exp : List Elem
  /-- LOG[0..Q]. -/
  log : List Elem
deriving DecidableEq, Repr

/-! ## Configuration and tables -/

/-- Q = 2^m − 1, the order of the multiplicative group (R8, R16). -/
def groupOrder (m : Nat) : Nat := 2 ^ m - 1

/-- Multiplication by α = x modulo p (R123). -/
def xtime (m p e : Nat) : Nat :=
  let t := e <<< 1
  if t.testBit m then t ^^^ p else t

/-- e_k of R122(d): k applications of xtime to 1. -/
def alphaPow (m p : Nat) : Nat → Nat
  | 0 => 1
  | k + 1 => xtime m p (alphaPow m p k)

/-- From element e, the n-th further application of xtime is the first that gives 1. -/
def returnsToOneFirstAt (m p : Nat) : Nat → Nat → Bool
  | 0, _ => false
  | 1, e => xtime m p e == 1
  | n + 2, e => xtime m p e != 1 && returnsToOneFirstAt m p (n + 1) (xtime m p e)

/-- R122(d), p is primitive: the sequence e_0 = 1, e_1, … first returns to 1 at e_Q. A first return at Q is the same as
"e_0 .. e_(Q−1) all nonzero and pairwise distinct and e_Q = 1" (DEDUCED, log 7). -/
def primitive (m p : Nat) : Bool := returnsToOneFirstAt m p (groupOrder m) 1

/-- valid_config(m, p, base) of R122. -/
def validConfig (m p base : Nat) : Bool :=
  decide (1 ≤ m) && decide (m ≤ Config.mmax) && decide (p >>> m = 1) && decide (base ≤ 1) && primitive m p

/-- n successive powers of α from the element e on (R123). -/
def expSeq (m p : Nat) : Nat → Nat → List Elem
  | 0, _ => []
  | n + 1, e => BitVec.ofNat 16 e :: expSeq m p n (xtime m p e)

/-- EXP of build_tables(m, p): E[i] = α^i for i < Q (R123, R40). -/
def buildExp (m p : Nat) : List Elem := expSeq m p (groupOrder m) 1

/-- LOG of build_tables(m, p): Lg[0] = 0, and Lg[a] is the place of a in E for 1 ≤ a ≤ Q (R123, R40). -/
def buildLog (m : Nat) (E : List Elem) : List Elem :=
  (List.range (2 ^ m)).map fun a => if a = 0 then 0 else BitVec.ofNat 16 (E.idxOf (BitVec.ofNat 16 a))

/-- The field that a BUILD of (m, p) makes: its size and the two tables of R123. -/
def builtGf (m p : Nat) : Gf := ⟨m, buildExp m p, buildLog m (buildExp m p)⟩

/-! ## Field functions -/

/-- Q of the active field. -/
def Gf.q (F : Gf) : Nat := groupOrder F.m

/-- A value read as a field element is in range: below 2^M (R140, R200, R230). -/
def Gf.isElem (F : Gf) (a : Elem) : Bool := decide (a.toNat < 2 ^ F.m)

/-- EXP[i]. -/
def Gf.expAt (F : Gf) (i : Nat) : Elem := F.exp.getD i 0

/-- LOG[a], an integer. -/
def Gf.logOf (F : Gf) (a : Elem) : Nat := (F.log.getD a.toNat 0).toNat

/-- gadd, which is also gsub (R141). -/
def gadd (a b : Elem) : Elem := a ^^^ b

/-- gmul (R142). -/
def gmul (F : Gf) (a b : Elem) : Elem :=
  if a = 0 ∨ b = 0 then 0 else F.expAt ((F.logOf a + F.logOf b) % F.q)

/-- ginv of a nonzero element (R143). -/
def ginvNz (F : Gf) (a : Elem) : Elem := F.expAt ((F.q - F.logOf a) % F.q)

/-- gdiv by a nonzero element (R144). -/
def gdivNz (F : Gf) (a b : Elem) : Elem := gmul F a (ginvNz F b)

/-- gpow, the exponent an integer (R145). -/
def gpow (F : Gf) (a : Elem) (e : Nat) : Elem :=
  if e = 0 then 1 else if a = 0 then 0 else F.expAt ((F.logOf a * e) % F.q)

/-- alpha(k) = EXP[k mod Q] (R146). -/
def alpha (F : Gf) (k : Nat) : Elem := F.expAt (k % F.q)

/-- LOG of a nonzero element as a register value (R146). -/
def glogNz (F : Gf) (a : Elem) : Elem := F.log.getD a.toNat 0

/-- Σ over field elements: XOR from 0 (R14). -/
def gsum (l : List Elem) : Elem := l.foldl gadd 0

/-- Π over field elements: gmul from 1 (R14). -/
def gprod (F : Gf) (l : List Elem) : Elem := l.foldl (gmul F) 1

end Sys2Proof.Machine
end

