-- ==== Sys2Proof/Machine/Ops.lean ====
section
/-! DEFINITION. The named operations on the state: register files, the active field, completion, recording an error, reset
(10_state.md rules R10, R21, R41; 60_exceptions.md rules R280 to R283; 70_reset_and_hazards.md rules R320, R321). -/

namespace Sys2Proof.Machine

/-! ## Register files -/

/-- x[i]: S0 always reads 0 (R10, R21). -/
def State.readS (s : State) (r : SReg) : Elem := if r = 0 then 0 else s.sregs[r]

/-- x[i] ← v: a write to S0 is discarded (R10, R21). -/
def State.writeS (s : State) (r : SReg) (v : Elem) : State :=
  { s with sregs := if r = 0 then s.sregs else s.sregs.set r v }

/-- P[k] (R10, R25). -/
def State.readP (s : State) (k : PReg) : Poly := s.pregs[k]

/-- P[k] ← t, the whole sequence and its length (R10, R25). -/
def State.writeP (s : State) (k : PReg) (t : Poly) : State := { s with pregs := s.pregs.set k t }

/-! ## The active field -/

/-- The active field: M and its tables (R40, R41). -/
def State.gf (s : State) : Gf := ⟨s.mAct.toNat, s.expTable, s.logTable⟩

/-- Q = 2^M_act − 1 (R41). -/
def State.q (s : State) : Nat := groupOrder s.mAct.toNat

/-- b = BASE_act (R41). -/
def State.b (s : State) : Nat := s.baseAct.toNat

/-! ## Completion and errors. This is the engine's whole exception mechanism: no trap entry beyond it (R291). -/

/-- Step (3) of a completion: BUSY ← 0 and DONE ← 1 (R280). -/
def State.finish (s : State) : State := { s with busy := false, done := true }

/-- record_error(E, w): the first unacknowledged error keeps ERRCODE and ERRCMD, a later one sets ERROVF (R281, R283). -/
def State.recordError (s : State) (e : ErrCode) (w : Word) : State :=
  { s with
    err := true
    errcode := if s.err then s.errcode else e.code
    errcmd := if s.err then s.errcmd else w
    errovf := s.errovf || s.err }

/-- complete() for a command whose rule gave r on state s (R280): the new state, or the error recorded in the state
otherwise unchanged (R282); then BUSY ← 0 and DONE ← 1. The word recorded is INFLIGHT. -/
def complete (s : State) (r : Except ErrCode State) : State :=
  match r with
  | .ok t => t.finish
  | .error e => (s.recordError e s.inflight).finish

/-! ## Reset -/

/-- Every piece of the engine's state at its reset value (R45, R321). The environment's own fields stay: a reset does not
undo the host's later accesses or what it has read (log 10). -/
def State.resetEngine (s : State) : State :=
  { State.reset with agenda := s.agenda, replies := s.replies, draws := s.draws, unpolled := s.unpolled }

/-- A CTRL write (R32): bit 1 resets, whatever bit 0 holds; otherwise IRQ_EN ← bit 0. -/
def State.writeCtrl (s : State) (v : Word) : State :=
  if v.getLsbD 1 then s.resetEngine else { s with irqEn := v.getLsbD 0 }

end Sys2Proof.Machine
end

