-- ==== Sys2Proof/Machine/Poly.lean ====
section
/-! DEFINITION. Sequences and polynomials over the field: set-length, strip, evaluation, product, division with remainder,
scaled add (10_state.md rule R26, 42_polymove.md rule R177, 43_polyarith.md rules R201 to R205). -/

namespace Sys2Proof.Machine

/-- zeros(n) (R11). -/
def zeros (n : Nat) : Poly := List.replicate n 0

/-- The sequence at length n: the tail dropped, or new positions filled with 0 (R26, R46, R174). -/
def setLen (n : Nat) (s : Poly) : Poly := s.take n ++ zeros (n - s.length)

/-- The sequence without its leading zeros (R177). -/
def strip (s : Poly) : Poly := s.dropWhile (fun a => a == 0)

/-- Every element is a field element (R200, R230). -/
def allElems (F : Gf) (s : Poly) : Bool := s.all F.isElem

/-- evalD(prior, s, x): Horner evaluation in descending orientation (R201). -/
def evalD (F : Gf) (prior : Elem) (s : Poly) (x : Elem) : Elem :=
  s.foldl (fun r c => gadd (gmul F r x) c) prior

/-- evalA(s, x): evaluation in ascending orientation (R202). -/
def evalA (F : Gf) (s : Poly) (x : Elem) : Elem := evalD F 0 s.reverse x

/-- Elementwise gadd of two sequences aligned at index 0, the longer one's rest kept. -/
def addAtFront : Poly → Poly → Poly
  | [], t => t
  | s, [] => s
  | a :: s, b :: t => gadd a b :: addAtFront s t

/-- c times each element. -/
def scale (F : Gf) (c : Elem) (s : Poly) : Poly := s.map (gmul F c)

/-- The convolution of a and a nonempty b: the head of a times b, plus the rest's product one place further (R203). -/
def convolve (F : Gf) (b : Poly) : Poly → Poly
  | [] => []
  | h :: t => addAtFront (scale F h b) (0 :: convolve F b t)

/-- pmul(a, b), the full convolution; empty when an operand is empty (R203). -/
def pmul (F : Gf) (a b : Poly) : Poly := if b = [] then [] else convolve F b a

/-- n passes of R204's outer loop on the working sequence w: c = w[i] / b[0] becomes the next quotient element, and
b[1..] times c is added to the elements after it. The result is (quotient, what is left of w). -/
def divLoop (F : Gf) (b0 : Elem) (bt : Poly) : Nat → Poly → Poly × Poly
  | 0, w => ([], w)
  | _ + 1, [] => ([], [])
  | n + 1, h :: t =>
    let c := gdivNz F h b0
    let r := divLoop F b0 bt n (addAtFront t (scale F c bt))
    (c :: r.1, r.2)

/-- pdivmod(a, b) in descending orientation: (quotient, remainder), or E_DOMAIN (R204). b[0] is nonzero where the loop
divides by it, so its gdiv raises nothing (log 8). -/
def pdivmod (F : Gf) (a b : Poly) : Except ErrCode (Poly × Poly) :=
  match b with
  | [] => .error .domain
  | b0 :: bt =>
    if b0 = 0 then .error .domain
    else if a.length < b.length then .ok ([], zeros (b.length - 1 - a.length) ++ a)
    else .ok (divLoop F b0 bt (a.length - b.length + 1) a)

/-- s left-padded with zeros to length n. -/
def padLeft (n : Nat) (s : Poly) : Poly := zeros (n - s.length) ++ s

/-- paddsb(a, b, s): a plus s times b, aligned at the constant end (R205). -/
def paddsb (F : Gf) (a b : Poly) (s : Elem) : Poly :=
  let n := max a.length b.length
  List.zipWith (fun x y => gadd x (gmul F s y)) (padLeft n a) (padLeft n b)

end Sys2Proof.Machine
end

