-- ==== Sys2Proof/Machine/Bus.lean ====
section
/-! DEFINITION. Host accesses to the register map (10_state.md rules R30 to R39, R46, R47; 20_memory.md rules R62 to R70;
70_reset_and_hazards.md rules R325, R326). -/

namespace Sys2Proof.Machine

/-- The register map R30 for a word-aligned byte offset. -/
def targetOf (addr : Addr) : Target :=
  let o := addr.toNat
  if o < 0x034 then
    match o / 4 with
    | 0 => .id
    | 1 => .ctrl
    | 2 => .status
    | 3 => .cmd
    | 4 => .cfgM
    | 5 => .cfgPoly
    | 6 => .cfgBase
    | 7 => .actCfg
    | 8 => .actPoly
    | 9 => .errcmd
    | 10 => .errcount
    | 11 => .gdeg
    | _ => .cap
  else if o < 0x040 then .reserved
  else if o < 0x080 then .sreg (Fin.ofNat 16 ((o - 0x040) / 4))
  else if o < 0x0A0 then .plen (Fin.ofNat 8 ((o - 0x080) / 4))
  else if o < 0x040000 then .reserved
  else if o < 0x080000 then .expWin ((o - 0x040000) / 4)
  else if o < 0x0C0000 then .logWin ((o - 0x080000) / 4)
  else if o < 0x100000 then .gWin ((o - 0x0C0000) / 4)
  else if o < 0x300000 then .pWin (Fin.ofNat 8 ((o - 0x100000) / 0x40000)) ((o - 0x100000) % 0x40000 / 4)
  else .reserved

/-- A legal access: a 32-bit word at a multiple of 4 (R62). -/
def legalAccess (size : AccessSize) (addr : Addr) : Bool := decide (size = .word) && decide (addr.toNat % 4 = 0)

/-- What an idle engine returns for each row of the map (R31 to R39, R46, R47, R64 to R68). -/
def State.busValue (s : State) : Target → Word
  | .id => Config.idWord
  | .ctrl => s.ctrlWord
  | .status => s.statusWord
  | .cmd => 0
  | .cfgM => s.cfgM.setWidth 32
  | .cfgPoly => s.cfgPoly.setWidth 32
  | .cfgBase => s.cfgBase.setWidth 32
  | .actCfg => if s.ready then s.mAct.setWidth 32 ||| (s.baseAct.setWidth 32 <<< 8) else 0
  | .actPoly => if s.ready then s.polyAct.setWidth 32 else 0
  | .errcmd => if s.err then s.errcmd else 0
  | .errcount => s.errcount.setWidth 32
  | .gdeg => if s.gvalid then s.gdeg.setWidth 32 else 0
  | .cap => BitVec.ofNat 32 Config.pcap
  | .reserved => 0
  | .sreg i => (s.readS i).setWidth 32
  | .plen k => BitVec.ofNat 32 (s.readP k).length
  | .expWin i => if s.ready && decide (i < s.q) then (s.expTable.getD i 0).setWidth 32 else 0
  | .logWin i => if s.ready && decide (1 ≤ i) && decide (i ≤ s.q) then (s.logTable.getD i 0).setWidth 32 else 0
  | .gWin i => if s.gvalid && decide (i ≤ s.gdeg.toNat) then (s.gpoly.getD i 0).setWidth 32 else 0
  | .pWin k i => ((s.readP k).getD i 0).setWidth 32

/-- The word v goes back to the host (log 3). -/
def State.reply (s : State) (v : Word) : State := { s with replies := v :: s.replies }

/-- An unspecified word goes back to the host: the next free value (R326, log 4). -/
def State.replyDraw (s : State) : State :=
  { s with replies := Config.busyRead s.draws :: s.replies, draws := s.draws + 1 }

/-- A STATUS read: its word goes back, and once it shows BUSY = 0 the host has polled its last command (R327, R329). -/
def State.readStatus (s : State) : State := { s.reply s.statusWord with unpolled := s.unpolled && s.busy }

/-- A legal read with BUSY = 0: the value; a reserved offset reads 0 and sets ACCERR (R67). -/
def State.readIdle (s : State) (t : Target) : State :=
  match t with
  | .reserved => s.accessError.reply 0
  | .status => s.readStatus
  | _ => s.reply (s.busValue t)

/-- A legal read with BUSY = 1 (R326): ID, CTRL, STATUS, CAP and CMD read as defined, a reserved offset as when idle
(DEDUCED, log 5), and any other register or window reads an unspecified word. -/
def State.readBusy (s : State) (t : Target) : State :=
  match t with
  | .id | .ctrl | .status | .cap | .cmd | .reserved => s.readIdle t
  | _ => s.replyDraw

/-- A write of an accepted command word: INFLIGHT ← w and BUSY ← 1 (R42); the host has yet to read BUSY = 0 (R329). -/
def State.issue (s : State) (w : Word) : State := { s with inflight := w, busy := true, unpolled := true }

/-- A PLENk write (R46): bits [16:0], E_LENGTH's bus form being ACCERR. -/
def State.writePlen (s : State) (k : PReg) (v : Word) : State :=
  let n := (v.setWidth 17).toNat
  if n ≤ Config.pcap then s.writeP k (setLen n (s.readP k)) else s.accessError

/-- A write to index i of window Pk (R64). -/
def State.writePWin (s : State) (k : PReg) (i : Nat) (v : Word) : State :=
  if i < (s.readP k).length then s.writeP k ((s.readP k).set i (v.setWidth 16)) else s.accessError

/-- A legal write with BUSY = 0 (R32 to R36, R42, R46, R47, R64 to R68). -/
def State.writeIdle (s : State) (t : Target) (v : Word) : State :=
  match t with
  | .ctrl => s.writeCtrl v
  | .status => s.writeStatus v
  | .cmd => s.issue v
  | .cfgM => { s with cfgM := v.setWidth 5 }
  | .cfgPoly => { s with cfgPoly := v.setWidth 17 }
  | .cfgBase => { s with cfgBase := v.setWidth 2 }
  | .sreg i => s.writeS i (v.setWidth 16)
  | .plen k => s.writePlen k v
  | .pWin k i => s.writePWin k i v
  | .id | .actCfg | .actPoly | .errcmd | .errcount | .gdeg | .cap | .reserved | .expWin _ | .logWin _ | .gWin _ =>
    s.accessError

/-- A legal write with BUSY = 1 (R325, R326): CTRL and STATUS are performed, every other write is refused. -/
def State.writeBusy (s : State) (t : Target) (v : Word) : State :=
  match t with
  | .ctrl => s.writeCtrl v
  | .status => s.writeStatus v
  | _ => s.accessError

/-- One host access, performed atomically (R62, R70, R326). An access of another size or alignment changes nothing but
ACCERR, and reads 0. -/
def State.access (s : State) (a : Access) : State :=
  match a with
  | .read size addr =>
    if legalAccess size addr then
      if s.busy then s.readBusy (targetOf addr) else s.readIdle (targetOf addr)
    else s.accessError.reply 0
  | .write size addr v =>
    if legalAccess size addr then
      if s.busy then s.writeBusy (targetOf addr) v else s.writeIdle (targetOf addr) v
    else s.accessError

end Sys2Proof.Machine
end

