-- ==== Sys2Proof/Machine/Operands.lean ====
section
/-! DEFINITION. How a command reads and range-checks its operands: 10_state.md rules R10, R21, 41_field.md rule
R140, 43_polyarith.md rule R200 and 44_rs_encode.md rule R230. -/

namespace Sys2Proof.Machine

/-- Scalar sources marked "element" are below 2^M (R140). -/
def scalarsOk (s : State) (rs : List SReg) : Bool := rs.all fun r => s.gf.isElem (s.readS r)

/-- Every element of the polynomial sources is below 2^M (R200, R230). -/
def polysOk (s : State) (ps : List PReg) : Bool := ps.all fun p => allElems s.gf (s.readP p)

/-- The given scalar and polynomial sources hold field elements; a command that needs them raises E_RANGE otherwise
(R140, R200, R230). -/
def elemsOk (s : State) (rs : List SReg) (ps : List PReg) : Bool := scalarsOk s rs && polysOk s ps

/-- The length of a polynomial register (R10). -/
def State.lenP (s : State) (k : PReg) : Nat := (s.readP k).length

/-- A scalar source read as an integer: an index, a length, an exponent or a degree (R21). -/
def State.intS (s : State) (r : SReg) : Nat := (s.readS r).toNat

end Sys2Proof.Machine
end

