-- ==== Sys2Proof/Machine/Control.lean ====
section
/-! DEFINITION. The control commands NOP and BUILD (40_control.md rules R120, R121). -/

namespace Sys2Proof.Machine

/-- NOP: nothing but the completion (R120). -/
def execNop (s : State) : Host.Outcome State Fault Refusal := .next (complete s (.ok s))

/-- What a successful BUILD writes: the staged configuration latched, the tables built, the generator cleared (R121). -/
def latchConfig (s : State) : State :=
  { s with
    ready := true
    mAct := s.cfgM
    polyAct := s.cfgPoly
    baseAct := s.cfgBase.setWidth 1
    expTable := buildExp s.cfgM.toNat s.cfgPoly.toNat
    logTable := buildLog s.cfgM.toNat (buildExp s.cfgM.toNat s.cfgPoly.toNat)
    gvalid := false
    gdeg := 0
    gpoly := [] }

/-- BUILD's rule (R121, R122). -/
def ruleBuild (s : State) : Except ErrCode State :=
  if !validConfig s.cfgM.toNat s.cfgPoly.toNat s.cfgBase.toNat then .error .config
  else (.ok (latchConfig s))

/-- BUILD (R121). -/
def execBuild (s : State) : Host.Outcome State Fault Refusal := .next (complete s (ruleBuild s))

end Sys2Proof.Machine
end

