-- ==== Sys2Proof/Machine/FieldCmds.lean ====
section
/-! DEFINITION. The field scalar commands LI, GADD, GMUL, GDIV, GINV, GPOW, GEXP, GLOG (41_field.md rules R140, R148 to
R155). -/

namespace Sys2Proof.Machine

/-- LI: x[rd] ← imm16 (R148). -/
def execLi (rd : SReg) (imm : Elem) (s : State) : Host.Outcome State Fault Refusal :=
  .next (complete s (.ok (s.writeS rd imm)))

/-- GADD's rule (R149). -/
def ruleGadd (rd rs1 rs2 : SReg) (s : State) : Except ErrCode State :=
  if !s.ready then .error .notReady
  else if !elemsOk s [rs1, rs2] [] then .error .range
  else .ok (s.writeS rd (gadd (s.readS rs1) (s.readS rs2)))

/-- GADD (R149). -/
def execGadd (rd rs1 rs2 : SReg) (s : State) : Host.Outcome State Fault Refusal :=
  .next (complete s (ruleGadd rd rs1 rs2 s))

/-- GMUL's rule (R150). -/
def ruleGmul (rd rs1 rs2 : SReg) (s : State) : Except ErrCode State :=
  if !s.ready then .error .notReady
  else if !elemsOk s [rs1, rs2] [] then .error .range
  else .ok (s.writeS rd (gmul s.gf (s.readS rs1) (s.readS rs2)))

/-- GMUL (R150). -/
def execGmul (rd rs1 rs2 : SReg) (s : State) : Host.Outcome State Fault Refusal :=
  .next (complete s (ruleGmul rd rs1 rs2 s))

/-- GDIV's rule (R151): E_DOMAIN for a zero divisor, whatever the dividend (R144). -/
def ruleGdiv (rd rs1 rs2 : SReg) (s : State) : Except ErrCode State :=
  if !s.ready then .error .notReady
  else if !elemsOk s [rs1, rs2] [] then .error .range
  else if s.readS rs2 = 0 then .error .domain
  else .ok (s.writeS rd (gdivNz s.gf (s.readS rs1) (s.readS rs2)))

/-- GDIV (R151). -/
def execGdiv (rd rs1 rs2 : SReg) (s : State) : Host.Outcome State Fault Refusal :=
  .next (complete s (ruleGdiv rd rs1 rs2 s))

/-- GINV's rule (R152): E_DOMAIN for zero (R143). -/
def ruleGinv (rd rs1 : SReg) (s : State) : Except ErrCode State :=
  if !s.ready then .error .notReady
  else if !elemsOk s [rs1] [] then .error .range
  else if s.readS rs1 = 0 then .error .domain
  else .ok (s.writeS rd (ginvNz s.gf (s.readS rs1)))

/-- GINV (R152). -/
def execGinv (rd rs1 : SReg) (s : State) : Host.Outcome State Fault Refusal :=
  .next (complete s (ruleGinv rd rs1 s))

/-- GPOW's rule (R153): the exponent is an integer and is not range-checked. -/
def ruleGpow (rd rs1 rs2 : SReg) (s : State) : Except ErrCode State :=
  if !s.ready then .error .notReady
  else if !elemsOk s [rs1] [] then .error .range
  else .ok (s.writeS rd (gpow s.gf (s.readS rs1) (s.intS rs2)))

/-- GPOW (R153). -/
def execGpow (rd rs1 rs2 : SReg) (s : State) : Host.Outcome State Fault Refusal :=
  .next (complete s (ruleGpow rd rs1 rs2 s))

/-- GEXP's rule (R154): the exponent is an integer and is not range-checked. -/
def ruleGexp (rd rs1 : SReg) (s : State) : Except ErrCode State :=
  if !s.ready then .error .notReady
  else .ok (s.writeS rd (alpha s.gf (s.intS rs1)))

/-- GEXP (R154). -/
def execGexp (rd rs1 : SReg) (s : State) : Host.Outcome State Fault Refusal :=
  .next (complete s (ruleGexp rd rs1 s))

/-- GLOG's rule (R155): E_DOMAIN for zero (R146). -/
def ruleGlog (rd rs1 : SReg) (s : State) : Except ErrCode State :=
  if !s.ready then .error .notReady
  else if !elemsOk s [rs1] [] then .error .range
  else if s.readS rs1 = 0 then .error .domain
  else .ok (s.writeS rd (glogNz s.gf (s.readS rs1)))

/-- GLOG (R155). -/
def execGlog (rd rs1 : SReg) (s : State) : Host.Outcome State Fault Refusal :=
  .next (complete s (ruleGlog rd rs1 s))

end Sys2Proof.Machine
end

