-- ==== Sys2Proof/Machine/PolyArith.lean ====
section
/-! DEFINITION. The polynomial arithmetic commands PEVAL, PEVALA, PEVALC, PMUL, PDIV, PADDSB (43_polyarith.md rules R200,
R206 to R211). -/

namespace Sys2Proof.Machine

/-- PEVAL's rule (R206). -/
def rulePeval (rd : SReg) (pa : PReg) (rs2 : SReg) (s : State) : Except ErrCode State :=
  if !s.ready then .error .notReady
  else if !elemsOk s [rs2] [pa] then .error .range
  else .ok (s.writeS rd (evalD s.gf 0 (s.readP pa) (s.readS rs2)))

/-- PEVAL (R206). -/
def execPeval (rd : SReg) (pa : PReg) (rs2 : SReg) (s : State) : Host.Outcome State Fault Refusal :=
  .next (complete s (rulePeval rd pa rs2 s))

/-- PEVALA's rule (R207). -/
def rulePevala (rd : SReg) (pa : PReg) (rs2 : SReg) (s : State) : Except ErrCode State :=
  if !s.ready then .error .notReady
  else if !elemsOk s [rs2] [pa] then .error .range
  else .ok (s.writeS rd (evalA s.gf (s.readP pa) (s.readS rs2)))

/-- PEVALA (R207). -/
def execPevala (rd : SReg) (pa : PReg) (rs2 : SReg) (s : State) : Host.Outcome State Fault Refusal :=
  .next (complete s (rulePevala rd pa rs2 s))

/-- PEVALC's rule (R208). -/
def rulePevalc (rd : SReg) (pa : PReg) (rs2 rs3 : SReg) (s : State) : Except ErrCode State :=
  if !s.ready then .error .notReady
  else if !elemsOk s [rs2, rs3] [pa] then .error .range
  else .ok (s.writeS rd (evalD s.gf (s.readS rs3) (s.readP pa) (s.readS rs2)))

/-- PEVALC (R208). -/
def execPevalc (rd : SReg) (pa : PReg) (rs2 rs3 : SReg) (s : State) : Host.Outcome State Fault Refusal :=
  .next (complete s (rulePevalc rd pa rs2 rs3 s))

/-- PMUL's rule (R209): E_LENGTH before E_RANGE (R286); len(Pa) + len(Pb) − 1 > PCAP as integers. -/
def rulePmul (pd pa pb : PReg) (s : State) : Except ErrCode State :=
  if !s.ready then .error .notReady
  else if Config.pcap + 1 < s.lenP pa + s.lenP pb then .error .length
  else if !elemsOk s [] [pa, pb] then .error .range
  else .ok (s.writeP pd (pmul s.gf (s.readP pa) (s.readP pb)))

/-- PMUL (R209). -/
def execPmul (pd pa pb : PReg) (s : State) : Host.Outcome State Fault Refusal :=
  .next (complete s (rulePmul pd pa pb s))

/-- PDIV's rule (R210): the quotient to Pc and the remainder to Pd; E_ILLEGAL if pd = pc (R96(e)). -/
def rulePdiv (pd pa pb pc : PReg) (s : State) : Except ErrCode State :=
  if pd = pc then .error .illegal
  else if !s.ready then .error .notReady
  else if !elemsOk s [] [pa, pb] then .error .range
  else
    match pdivmod s.gf (s.readP pa) (s.readP pb) with
    | .ok (q, r) => .ok ((s.writeP pc q).writeP pd r)
    | .error e => .error e

/-- PDIV (R210). -/
def execPdiv (pd pa pb pc : PReg) (s : State) : Host.Outcome State Fault Refusal :=
  .next (complete s (rulePdiv pd pa pb pc s))

/-- PADDSB's rule (R211). -/
def rulePaddsb (pd pa pb : PReg) (rs3 : SReg) (s : State) : Except ErrCode State :=
  if !s.ready then .error .notReady
  else if !elemsOk s [rs3] [pa, pb] then .error .range
  else .ok (s.writeP pd (paddsb s.gf (s.readP pa) (s.readP pb) (s.readS rs3)))

/-- PADDSB (R211). -/
def execPaddsb (pd pa pb : PReg) (rs3 : SReg) (s : State) : Host.Outcome State Fault Refusal :=
  .next (complete s (rulePaddsb pd pa pb rs3 s))

end Sys2Proof.Machine
end

