-- ==== Sys2Proof/Machine/PolyMove.lean ====
section
/-! DEFINITION. The polynomial move commands PGET, PPUT, PLEN, PSETLEN, PMOV, PREV, PSTRIP (42_polymove.md rules R170 to
R177): no READY, no range check. -/

namespace Sys2Proof.Machine

/-- PGET's rule (R171). -/
def rulePget (rd : SReg) (pa : PReg) (rs2 : SReg) (s : State) : Except ErrCode State :=
  if s.lenP pa ≤ s.intS rs2 then .error .index
  else .ok (s.writeS rd ((s.readP pa).getD (s.intS rs2) 0))

/-- PGET (R171). -/
def execPget (rd : SReg) (pa : PReg) (rs2 : SReg) (s : State) : Host.Outcome State Fault Refusal :=
  .next (complete s (rulePget rd pa rs2 s))

/-- PPUT's rule (R172). -/
def rulePput (pd : PReg) (rs1 rs2 : SReg) (s : State) : Except ErrCode State :=
  if s.lenP pd ≤ s.intS rs1 then .error .index
  else .ok (s.writeP pd ((s.readP pd).set (s.intS rs1) (s.readS rs2)))

/-- PPUT (R172). -/
def execPput (pd : PReg) (rs1 rs2 : SReg) (s : State) : Host.Outcome State Fault Refusal :=
  .next (complete s (rulePput pd rs1 rs2 s))

/-- PLEN: bits [15:0] of the length (R173). -/
def execPlen (rd : SReg) (pa : PReg) (s : State) : Host.Outcome State Fault Refusal :=
  .next (complete s (.ok (s.writeS rd (BitVec.ofNat 16 (s.lenP pa)))))

/-- PSETLEN's rule (R174). -/
def rulePsetlen (pd : PReg) (rs1 : SReg) (s : State) : Except ErrCode State :=
  if Config.pcap < s.intS rs1 then .error .length
  else .ok (s.writeP pd (setLen (s.intS rs1) (s.readP pd)))

/-- PSETLEN (R174). -/
def execPsetlen (pd : PReg) (rs1 : SReg) (s : State) : Host.Outcome State Fault Refusal :=
  .next (complete s (rulePsetlen pd rs1 s))

/-- PMOV (R175). -/
def execPmov (pd pa : PReg) (s : State) : Host.Outcome State Fault Refusal :=
  .next (complete s (.ok (s.writeP pd (s.readP pa))))

/-- PREV (R176). -/
def execPrev (pd pa : PReg) (s : State) : Host.Outcome State Fault Refusal :=
  .next (complete s (.ok (s.writeP pd (s.readP pa).reverse)))

/-- PSTRIP (R177). -/
def execPstrip (pd pa : PReg) (s : State) : Host.Outcome State Fault Refusal :=
  .next (complete s (.ok (s.writeP pd (strip (s.readP pa)))))

end Sys2Proof.Machine
end

