-- ==== Sys2Proof/Machine/Codec.lean ====
section
/-! DEFINITION. The Reed–Solomon functions: generator, encode, syndromes, Berlekamp–Massey, root search, Forney, decode
(44_rs_encode.md rules R231, R233; 45_rs_decode.md rules R250 to R265). -/

namespace Sys2Proof.Machine

/-- gen(d, b), the generator polynomial of degree d (R231). -/
def gen (F : Gf) (d b : Nat) : Poly :=
  (List.range d).foldl (fun g i => pmul F g [1, alpha F (b + i)]) [1]

/-- enc(g, msg): the remainder of msg ++ zeros(len(g) − 1) by g (R233). -/
def enc (F : Gf) (g msg : Poly) : Except ErrCode Poly :=
  match pdivmod F (msg ++ zeros (g.length - 1)) g with
  | .ok qr => .ok qr.2
  | .error e => .error e

/-- syn(msg, ecc, d, b): the d syndromes (R250). -/
def syn (F : Gf) (msg ecc : Poly) (d b : Nat) : Poly :=
  (List.range d).map fun i => evalD F (evalD F 0 msg (alpha F (i + b))) ecc (alpha F (i + b))

/-! ## Berlekamp–Massey (R252). C and B are held in ascending orientation: index j is the coefficient of x^j. -/

/-- The variables of R252's loop. -/
structure BmState where
  c : Poly
  b : Poly
  l : Nat
  m : Nat
  bb : Elem
deriving DecidableEq, Repr

/-- C = 1, B = 1, L = 0, m = 1, bb = 1 (R252). -/
def bmInit : BmState := ⟨[1], [1], 0, 1, 1⟩

/-- coef(P, j) (R252). -/
def coef (p : Poly) (j : Nat) : Elem := p.getD j 0

/-- delta = S[n] ⊕ Σ_{j=1}^{L} coef(C, j)·S[n − j] (R252). -/
def bmDelta (F : Gf) (S : Poly) (st : BmState) (n : Nat) : Elem :=
  gadd (coef S n) (gsum ((List.range st.l).map fun i => gmul F (coef st.c (i + 1)) (coef S (n - (i + 1)))))

/-- C ⊕ (delta / bb)·x^m·B (R252). bb is never 0, so gdiv raises nothing (log 8). -/
def bmUpdate (F : Gf) (st : BmState) (delta : Elem) : Poly :=
  addAtFront st.c (zeros st.m ++ scale F (gdivNz F delta st.bb) st.b)

/-- One pass of R252's loop, for index n. -/
def bmStep (F : Gf) (S : Poly) (st : BmState) (n : Nat) : BmState :=
  let delta := bmDelta F S st n
  if delta = 0 then { st with m := st.m + 1 }
  else if 2 * st.l ≤ n then ⟨bmUpdate F st delta, st.c, n + 1 - st.l, 1, delta⟩
  else { st with c := bmUpdate F st delta, m := st.m + 1 }

/-- The loop of R252 over all of S. -/
def bmRun (F : Gf) (S : Poly) : BmState := (List.range S.length).foldl (bmStep F S) bmInit

/-- bm(S): the error locator, descending, leading zeros stripped (R252). -/
def bm (F : Gf) (S : Poly) : Poly :=
  let st := bmRun F S
  strip ((List.range (st.l + 1)).reverse.map (coef st.c))

/-! ## Root search (R255) -/

/-- The locations of chien(Λ, N), in increasing i, that is in decreasing position (R255). -/
def chienLocs (F : Gf) (lam : Poly) (n : Nat) : Poly :=
  ((List.range n).filter fun i => evalA F lam (alpha F i) == 0).map fun i => BitVec.ofNat 16 (n - 1 - i)

/-- chien(Λ, N): the locations, and whether their count is len(Λ) − 1 (R255; an integer comparison, so false for an
empty Λ). -/
def chien (F : Gf) (lam : Poly) (n : Nat) : Poly × Bool :=
  let locs := chienLocs F lam n
  (locs, decide (locs.length + 1 = lam.length))

/-! ## Forney correction (R257 to R262) -/

/-- Σ_{j=0}^{min(d, s−1)} S[j]·Λ[ν − (d − j)], coefficient d of Ω (R258). -/
def omegaCoef (F : Gf) (S lam : Poly) (d : Nat) : Elem :=
  gsum ((List.range (min (d + 1) S.length)).map fun j => gmul F (coef S j) (coef lam (lam.length - 1 - (d - j))))

/-- The error evaluator Ω, ascending, ν coefficients (R258). -/
def omega (F : Gf) (S lam : Poly) : Poly := (List.range (lam.length - 1)).map (omegaCoef F S lam)

/-- The position elements X_i = alpha(N − 1 − locs[i]) (R257). -/
def positions (F : Gf) (n : Nat) (locs : Poly) : Poly := locs.map fun p => alpha F (n - 1 - p.toNat)

/-- D_i = Π_{j ≠ i} (1 ⊕ X_i^(−1)·X_j) (R259). -/
def forneyDenom (F : Gf) (X : Poly) (i : Nat) : Elem :=
  gprod F (((List.range X.length).filter fun j => j != i).map fun j =>
    gadd 1 (gmul F (ginvNz F (coef X i)) (coef X j)))

/-- Y_i = Ω(X_i^(−1))·X_i^(−b) / D_i (R260). -/
def magnitude (F : Gf) (om X : Poly) (b i : Nat) : Elem :=
  gdivNz F (gmul F (evalA F om (ginvNz F (coef X i))) (gpow F (ginvNz F (coef X i)) b)) (forneyDenom F X i)

/-- XOR magnitude y into message place p; a place in the ECC part changes nothing (R261). -/
def applyAt (msg : Poly) (p : Nat) (y : Elem) : Poly :=
  if p < msg.length then msg.set p (gadd (coef msg p) y) else msg

/-- All magnitudes applied (R261, R262): all are computed from the inputs before any is applied. -/
def applyAll (msg : Poly) (locs ys : Poly) : Poly :=
  (locs.zip ys).foldl (fun out py => applyAt out py.1.toNat py.2) msg

/-- forney(msg, S, Λ, locs, b) (R262). ginv(X_i) and the division by D_i raise E_DOMAIN on the zero element (R143, R259);
both are checked for every i before any value is used, which raises the same code (log 8). -/
def forney (F : Gf) (msg S lam locs : Poly) (b : Nat) : Except ErrCode Poly :=
  let X := positions F (msg.length + S.length) locs
  let om := omega F S lam
  if X.any (fun x => x == 0) || (List.range X.length).any (fun i => forneyDenom F X i == 0) then .error .domain
  else .ok (applyAll msg locs ((List.range X.length).map (magnitude F om X b)))

/-! ## Full decode (R265) -/

/-- dec(msg, ecc) for generator degree d: (message, ok, count) (R265). -/
def dec (F : Gf) (msg ecc : Poly) (d b : Nat) : Except ErrCode (Poly × Bool × Nat) :=
  let S := syn F msg ecc d b
  let lam := bm F S
  let lo := chien F lam (msg.length + ecc.length)
  if lo.2 then
    match forney F msg S lam lo.1 b with
    | .ok out => .ok (out, true, lo.1.length)
    | .error e => .error e
  else .ok (msg, false, 0)

end Sys2Proof.Machine
end

