-- ==== Sys2Proof/Machine/RsDecode.lean ====
section
/-! DEFINITION. The decode commands RSSYN, RSBM, RSCHIEN, RSFORNEY, RSDEC (45_rs_decode.md rules R251, R253, R256, R264,
R266). -/

namespace Sys2Proof.Machine

/-- RSSYN's rule (R251). -/
def ruleRssyn (pd pa pb : PReg) (s : State) : Except ErrCode State :=
  if !s.ready then .error .notReady
  else if !s.gvalid then .error .noGen
  else if s.lenP pb ≠ s.gdeg.toNat then .error .mismatch
  else if s.q < s.lenP pa + s.lenP pb then .error .length
  else if !elemsOk s [] [pa, pb] then .error .range
  else .ok (s.writeP pd (syn s.gf (s.readP pa) (s.readP pb) s.gdeg.toNat s.b))

/-- RSSYN (R251). -/
def execRssyn (pd pa pb : PReg) (s : State) : Host.Outcome State Fault Refusal :=
  .next (complete s (ruleRssyn pd pa pb s))

/-- RSBM's rule (R253). -/
def ruleRsbm (pd pa : PReg) (s : State) : Except ErrCode State :=
  if !s.ready then .error .notReady
  else if Config.pcap ≤ s.lenP pa then .error .length
  else if !elemsOk s [] [pa] then .error .range
  else .ok (s.writeP pd (bm s.gf (s.readP pa)))

/-- RSBM (R253). -/
def execRsbm (pd pa : PReg) (s : State) : Host.Outcome State Fault Refusal :=
  .next (complete s (ruleRsbm pd pa s))

/-- RSCHIEN's rule (R256). -/
def ruleRschien (pd pa : PReg) (rs2 : SReg) (s : State) : Except ErrCode State :=
  if !s.ready then .error .notReady
  else if s.q < s.intS rs2 then .error .length
  else if !elemsOk s [] [pa] then .error .range
  else
    let r := chien s.gf (s.readP pa) (s.intS rs2)
    .ok { s.writeP pd r.1 with fOk := r.2 }

/-- RSCHIEN (R256). -/
def execRschien (pd pa : PReg) (rs2 : SReg) (s : State) : Host.Outcome State Fault Refusal :=
  .next (complete s (ruleRschien pd pa rs2 s))

/-- RSFORNEY's rule (R264). -/
def ruleRsforney (pd pa pb pc : PReg) (s : State) : Except ErrCode State :=
  if !s.ready then .error .notReady
  else if s.q < s.lenP pd + s.lenP pa ∨ s.lenP pb = 0 then .error .length
  else if !elemsOk s [] [pd, pa, pb] then .error .range
  else if !((s.readP pc).all fun p => decide (p.toNat < s.lenP pd + s.lenP pa)) then .error .range
  else
    match forney s.gf (s.readP pd) (s.readP pa) (s.readP pb) (s.readP pc) s.b with
    | .ok out => .ok (s.writeP pd out)
    | .error e => .error e

/-- RSFORNEY (R264). -/
def execRsforney (pd pa pb pc : PReg) (s : State) : Host.Outcome State Fault Refusal :=
  .next (complete s (ruleRsforney pd pa pb pc s))

/-- RSDEC's rule (R266). -/
def ruleRsdec (pd pa : PReg) (s : State) : Except ErrCode State :=
  if !s.ready then .error .notReady
  else if !s.gvalid then .error .noGen
  else if s.lenP pa ≠ s.gdeg.toNat then .error .mismatch
  else if s.q < s.lenP pd + s.lenP pa then .error .length
  else if !elemsOk s [] [pd, pa] then .error .range
  else
    match dec s.gf (s.readP pd) (s.readP pa) s.gdeg.toNat s.b with
    | .ok (out, ok, cnt) => .ok { s.writeP pd out with fOk := ok, errcount := BitVec.ofNat 16 cnt }
    | .error e => .error e

/-- RSDEC (R266). -/
def execRsdec (pd pa : PReg) (s : State) : Host.Outcome State Fault Refusal :=
  .next (complete s (ruleRsdec pd pa s))

end Sys2Proof.Machine
end

