-- ==== Sys2Proof/Machine/RsEncode.lean ====
section
/-! DEFINITION. The generator and encode commands RSGEN and RSENC (44_rs_encode.md rules R230 to R234). -/

namespace Sys2Proof.Machine

/-- RSGEN's rule (R232). -/
def ruleRsgen (rs1 : SReg) (s : State) : Except ErrCode State :=
  if !s.ready then .error .notReady
  else if s.q < s.intS rs1 then .error .length
  else .ok { s with gpoly := gen s.gf (s.intS rs1) s.b, gdeg := s.readS rs1, gvalid := true }

/-- RSGEN (R232). -/
def execRsgen (rs1 : SReg) (s : State) : Host.Outcome State Fault Refusal :=
  .next (complete s (ruleRsgen rs1 s))

/-- RSENC's rule (R234). -/
def ruleRsenc (pd pa : PReg) (s : State) : Except ErrCode State :=
  if !s.ready then .error .notReady
  else if !s.gvalid then .error .noGen
  else if s.q < s.lenP pa + s.gdeg.toNat then .error .length
  else if !elemsOk s [] [pa] then .error .range
  else
    match enc s.gf s.gpoly (s.readP pa) with
    | .ok ecc => .ok (s.writeP pd ecc)
    | .error e => .error e

/-- RSENC (R234). -/
def execRsenc (pd pa : PReg) (s : State) : Host.Outcome State Fault Refusal :=
  .next (complete s (ruleRsenc pd pa s))

end Sys2Proof.Machine
end

