-- ==== Sys2Proof/Machine/Dispatch.lean ====
section
/-! DEFINITION. The dispatch: one arm per command of 30_encoding.md rule R95. -/

namespace Sys2Proof.Machine

def exec (i : Instr) (s : State) : Host.Outcome State Fault Refusal :=
  match i with
  | .nop => Sys2Proof.Machine.execNop s
  | .build => Sys2Proof.Machine.execBuild s
  | .li rd imm => Sys2Proof.Machine.execLi rd imm s
  | .gadd rd rs1 rs2 => Sys2Proof.Machine.execGadd rd rs1 rs2 s
  | .gmul rd rs1 rs2 => Sys2Proof.Machine.execGmul rd rs1 rs2 s
  | .gdiv rd rs1 rs2 => Sys2Proof.Machine.execGdiv rd rs1 rs2 s
  | .ginv rd rs1 => Sys2Proof.Machine.execGinv rd rs1 s
  | .gpow rd rs1 rs2 => Sys2Proof.Machine.execGpow rd rs1 rs2 s
  | .gexp rd rs1 => Sys2Proof.Machine.execGexp rd rs1 s
  | .glog rd rs1 => Sys2Proof.Machine.execGlog rd rs1 s
  | .pget rd pa rs2 => Sys2Proof.Machine.execPget rd pa rs2 s
  | .pput pd rs1 rs2 => Sys2Proof.Machine.execPput pd rs1 rs2 s
  | .plen rd pa => Sys2Proof.Machine.execPlen rd pa s
  | .psetlen pd rs1 => Sys2Proof.Machine.execPsetlen pd rs1 s
  | .pmov pd pa => Sys2Proof.Machine.execPmov pd pa s
  | .prev pd pa => Sys2Proof.Machine.execPrev pd pa s
  | .pstrip pd pa => Sys2Proof.Machine.execPstrip pd pa s
  | .peval rd pa rs2 => Sys2Proof.Machine.execPeval rd pa rs2 s
  | .pevala rd pa rs2 => Sys2Proof.Machine.execPevala rd pa rs2 s
  | .pevalc rd pa rs2 rs3 => Sys2Proof.Machine.execPevalc rd pa rs2 rs3 s
  | .pmul pd pa pb => Sys2Proof.Machine.execPmul pd pa pb s
  | .pdiv pd pa pb pc => Sys2Proof.Machine.execPdiv pd pa pb pc s
  | .paddsb pd pa pb rs3 => Sys2Proof.Machine.execPaddsb pd pa pb rs3 s
  | .rsgen rs1 => Sys2Proof.Machine.execRsgen rs1 s
  | .rsenc pd pa => Sys2Proof.Machine.execRsenc pd pa s
  | .rssyn pd pa pb => Sys2Proof.Machine.execRssyn pd pa pb s
  | .rsbm pd pa => Sys2Proof.Machine.execRsbm pd pa s
  | .rschien pd pa rs2 => Sys2Proof.Machine.execRschien pd pa rs2 s
  | .rsforney pd pa pb pc => Sys2Proof.Machine.execRsforney pd pa pb pc s
  | .rsdec pd pa => Sys2Proof.Machine.execRsdec pd pa s

end Sys2Proof.Machine
end

