-- ==== Sys2Proof/Machine/Engine.lean ====
section
/-! DEFINITION. One move of each agent (70_reset_and_hazards.md rule R328): the execution unit performs the command in
INFLIGHT (60_exceptions.md rule R280), the host makes an access, the platform resets. -/

namespace Sys2Proof.Machine

/-- The completion step (R280): decode INFLIGHT and perform the command; an illegal word raises E_ILLEGAL (R96). -/
def perform (s : State) : Host.Outcome State Fault Refusal :=
  match decode s.inflight with
  | .ok i => exec i s
  | .error _ => .next (complete s (.error .illegal))

/-- The execution unit's turn: the completion step is enabled exactly when BUSY = 1 (R328b); idle, nothing happens (R299). -/
def engineTurn (s : State) : Host.Outcome State Fault Refusal := if s.busy then perform s else .next s

/-- One move of R328. -/
def makeMove (m : Move) (s : State) : Host.Outcome State Fault Refusal :=
  match m with
  | .access a => .next (s.access a)
  | .engine => engineTurn s
  | .powerOn => .next s.resetEngine

end Sys2Proof.Machine
end

