-- ==== Sys2Proof/Machine/Step.lean ====
section
/-! DEFINITION. The step (70_reset_and_hazards.md rule R328) and where a step finds its next command. -/

namespace Sys2Proof.Machine

/-- One step: the first move of the agenda. When the agenda is used up the execution unit finishes what is in execution,
which is the weak fairness of R328 and R330; an idle engine stays as it is (log 1). -/
def step (s : State) : Host.Outcome State Fault Refusal :=
  match s.agenda with
  | [] => engineTurn s
  | m :: rest => makeMove m { s with agenda := rest }

/-- s after an accepted CMD write of w (R42), the execution unit to move next, so that the very next step performs w
(log 2). Bits above nbits are 0. -/
def State.withFetchWord (s : State) (nbits w : Nat) : State :=
  { s.issue (BitVec.ofNat 32 (w % 2 ^ nbits)) with agenda := .engine :: s.agenda }

end Sys2Proof.Machine
end

