-- ==== Sys2Proof/Safety.lean ====
section
/-! DEFINITION. The terms claims are stated in: the invariant of every reachable state, a clean and an ended run
(70_reset_and_hazards.md rule R329), field-element operands (41_field.md rule R140, 43_polyarith.md rule R200), and which
registers a command may write (10_state.md rules R22, R27 to R29, R41). -/

namespace Sys2Proof.Machine

/-! ## Runs (R329) -/

/-- "The run had no error": ERR = 0 ∧ ACCERR = 0 ∧ ERROVF = 0 (R329). -/
abbrev State.clean (s : State) : Prop := s.err = false ∧ s.accerr = false ∧ s.errovf = false

/-- The run is over (R329): the host has made its last access, BUSY = 0 has been read after its last accepted CMD write, and
nothing is in execution. A host that never polls has not ended its run (log 14). -/
abbrev State.ended (s : State) : Prop := s.agenda = [] ∧ s.unpolled = false ∧ s.busy = false

/-! ## Operands -/

/-- Scalar source r holds a field element: its value is below 2^M (R140). -/
abbrev State.elemS (s : State) (r : SReg) : Prop := (s.readS r).toNat < 2 ^ s.mAct.toNat

/-- Every element of polynomial source k is a field element (R200). -/
abbrev State.elemsP (s : State) (k : PReg) : Prop := ∀ a ∈ s.readP k, a.toNat < 2 ^ s.mAct.toNat

/-! ## The invariant of every reachable state -/

/-- What every state the engine reaches satisfies, from the rules that name each field's relation to the others. -/
structure State.Inv (s : State) : Prop where
  /-- S0 holds 0 (R21). -/
  s0 : s.sregs[(0 : SReg)] = 0
  /-- No polynomial register is longer than PCAP (R25). -/
  lengths : ∀ k : PReg, (s.readP k).length ≤ Config.pcap
  /-- READY = 0: no configuration, no tables, no generator (R27, R37, R38, R40, R41). -/
  notReady : s.ready = false → s.mAct = 0 ∧ s.polyAct = 0 ∧ s.baseAct = 0 ∧ s.expTable = [] ∧ s.logTable = [] ∧
    s.gvalid = false
  /-- READY = 1: the configuration passed BUILD's check and the tables are its tables (R40, R41, R121). -/
  isReady : s.ready = true → validConfig s.mAct.toNat s.polyAct.toNat s.baseAct.toNat = true ∧
    s.gf = builtGf s.mAct.toNat s.polyAct.toNat
  /-- GVALID = 0: GDEG = 0 and G = [] (R27). -/
  noGen : s.gvalid = false → s.gdeg = 0 ∧ s.gpoly = []
  /-- GVALID = 1: G is the generator polynomial of degree GDEG for the active configuration, and GDEG ≤ Q (R27, R232). -/
  isGen : s.gvalid = true → s.gdeg.toNat ≤ s.q ∧ s.gpoly.length = s.gdeg.toNat + 1 ∧ s.gpoly = gen s.gf s.gdeg.toNat s.b
  /-- ERR = 0: ERRCODE = 0x00 and ERRCMD = 0 (R33, R39, R284). -/
  noErr : s.err = false → s.errcode = 0 ∧ s.errcmd = 0
  /-- ERR = 1: ERRCODE is one of 0x01 to 0x09 (R285). -/
  isErr : s.err = true → 1 ≤ s.errcode.toNat ∧ s.errcode.toNat ≤ 9

/-! ## What a command may write -/

/-- The scalar register a command writes (R22). -/
def scalarDest : Instr → Option SReg
  | .li rd _ | .gadd rd _ _ | .gmul rd _ _ | .gdiv rd _ _ | .ginv rd _ | .gpow rd _ _ | .gexp rd _ | .glog rd _
  | .pget rd _ _ | .plen rd _ | .peval rd _ _ | .pevala rd _ _ | .pevalc rd _ _ _ => some rd
  | .nop | .build | .pput _ _ _ | .psetlen _ _ | .pmov _ _ | .prev _ _ | .pstrip _ _ | .pmul _ _ _ | .pdiv _ _ _ _
  | .paddsb _ _ _ _ | .rsgen _ | .rsenc _ _ | .rssyn _ _ _ | .rsbm _ _ | .rschien _ _ _ | .rsforney _ _ _ _
  | .rsdec _ _ => none

/-- The polynomial registers a command writes: its D field, and for PDIV the quotient's register too (R92, R210). -/
def polyDests : Instr → List PReg
  | .pput pd _ _ | .psetlen pd _ | .pmov pd _ | .prev pd _ | .pstrip pd _ | .pmul pd _ _ | .paddsb pd _ _ _
  | .rsenc pd _ | .rssyn pd _ _ | .rsbm pd _ | .rschien pd _ _ | .rsforney pd _ _ _ | .rsdec pd _ => [pd]
  | .pdiv pd _ _ pc => [pd, pc]
  | .nop | .build | .li _ _ | .gadd _ _ _ | .gmul _ _ _ | .gdiv _ _ _ | .ginv _ _ | .gpow _ _ _ | .gexp _ _ | .glog _ _
  | .pget _ _ _ | .plen _ _ | .peval _ _ _ | .pevala _ _ _ | .pevalc _ _ _ _ | .rsgen _ => []

/-- The commands that require READY (R285's list for E_NOTREADY, R323). -/
def requiresReady : Instr → Bool
  | .nop | .build | .li _ _ | .pget _ _ _ | .pput _ _ _ | .plen _ _ | .psetlen _ _ | .pmov _ _ | .prev _ _
  | .pstrip _ _ => false
  | .gadd _ _ _ | .gmul _ _ _ | .gdiv _ _ _ | .ginv _ _ | .gpow _ _ _ | .gexp _ _ | .glog _ _ | .peval _ _ _
  | .pevala _ _ _ | .pevalc _ _ _ _ | .pmul _ _ _ | .pdiv _ _ _ _ | .paddsb _ _ _ _ | .rsgen _ | .rsenc _ _
  | .rssyn _ _ _ | .rsbm _ _ | .rschien _ _ _ | .rsforney _ _ _ _ | .rsdec _ _ => true

/-- A host access that performs a soft reset: a word write to CTRL with bit 1 = 1 (R32). -/
def Access.softResets : Access → Bool
  | .write .word addr v => decide (addr = 0x004) && v.getLsbD 1
  | _ => false

end Sys2Proof.Machine
end

