-- ==== Sys2Proof/Certificates/Slice0/Obligations.lean ====
section
/-! DEFINITION. The statements about the engine, from the numbered rules of spec/. A command's result is stated as the whole
next state: `s.writeS rd v` is s with S<rd> written (S0 discards), `s.writeP pd t` is s with P<pd> replaced, `.finish` is
BUSY ← 0 and DONE ← 1, and `s.recordError e s.inflight` records the error e; every field not named is unchanged. -/

open Sys2Proof Sys2Proof.Machine

/-! ## Reset and state -/

/-- Every piece of the engine's state has the value of R45. -/
def AtReset (s : State) : Prop :=
  (∀ r : SReg, s.readS r = 0) ∧ (∀ k : PReg, s.readP k = []) ∧ s.gpoly = [] ∧ s.gdeg = 0 ∧ s.gvalid = false ∧
  s.fOk = false ∧ s.errcount = 0 ∧ s.ready = false ∧ s.mAct = 0 ∧ s.polyAct = 0 ∧ s.baseAct = 0 ∧ s.expTable = [] ∧
  s.logTable = [] ∧ s.cfgM = 8 ∧ s.cfgPoly = 0x11D ∧ s.cfgBase = 0 ∧ s.irqEn = false ∧ s.busy = false ∧
  s.inflight = 0 ∧ s.done = false ∧ s.err = false ∧ s.errovf = false ∧ s.accerr = false ∧ s.errcode = 0 ∧
  s.errcmd = 0 ∧ s.irq = false

/-- R45, R321: every piece of the engine's state has the stated value in State.reset, after a power-on reset of any state,
and after a soft reset of any state. (Moves come from the model's agenda, log 1; "no tables" is the empty list, log
6.) -/
def Obligations.ResetGivesEveryStateItsValue : Prop :=
  AtReset State.reset ∧
  (∀ (s : State) (rest : List Move), s.agenda = .powerOn :: rest → ∃ t, step s = .next t ∧ AtReset t) ∧
  ∀ (s : State) (a : Access), a.softResets = true → AtReset (s.access a)

/-- The invariant (Safety.lean) holds at reset. -/
def Obligations.ResetMeetsTheInvariant : Prop := State.reset.Inv

/-- From every state that meets the invariant, whatever the move, one step gives a state that meets it. (That READY =
0 means empty tables is the model's choice, log 6.) -/
def Obligations.EveryStepKeepsTheInvariant : Prop :=
  ∀ s t : State, s.Inv → step s = .next t → t.Inv

/-- R10, R21: the scalar file. A write sets the one register it names, S0 reads 0 and discards writes. The polynomial file:
a write replaces the one sequence it names. -/
def Obligations.RegisterFilesReadWhatWasWritten : Prop :=
  (∀ (s : State) (r q : SReg) (v : Elem),
    s.readS 0 = 0 ∧ s.writeS 0 v = s ∧ (r ≠ 0 → (s.writeS r v).readS r = v) ∧
    (q ≠ r → (s.writeS r v).readS q = s.readS q) ∧ ∀ k, (s.writeS r v).readP k = s.readP k) ∧
  ∀ (s : State) (k j : PReg) (t : Poly),
    (s.writeP k t).readP k = t ∧ (j ≠ k → (s.writeP k t).readP j = s.readP j) ∧ ∀ r, (s.writeP k t).readS r = s.readS r

/-! ## Encoding -/

/-- Words written out from the fields of R91 and R92, one or more per family, decode to the command they stand for. -/
def Obligations.WrittenOutWordsDecode : Prop :=
  decode 0x01000000 = .ok .nop ∧ decode 0x02000000 = .ok .build ∧ decode 0x1010001D = .ok (.li 1 0x1D) ∧
  decode 0x13312000 = .ok (.gdiv 3 1 2) ∧ decode 0x20402000 = .ok (.pget 4 0 2) ∧ decode 0x21112000 = .ok (.pput 1 1 2) ∧
  decode 0x32512500 = .ok (.pevalc 5 1 2 5) ∧ decode 0x34301400 = .ok (.pdiv 3 0 1 4) ∧
  decode 0x35201600 = .ok (.paddsb 2 0 1 6) ∧ decode 0x40010000 = .ok (.rsgen 1) ∧ decode 0x41100000 = .ok (.rsenc 1 0) ∧
  decode 0x44437000 = .ok (.rschien 4 3 7) ∧ decode 0x45023400 = .ok (.rsforney 0 2 3 4)

/-- Every well-formed command, with every operand at every value its encoding admits, is what its word decodes to. -/
def Obligations.DecodeOfEncodeIsTheCommand : Prop :=
  ∀ i : Instr, i.wf = true → decode (encode i) = .ok i

/-- R97: a word that decodes is the one word of a well-formed command: no two words mean one command. -/
def Obligations.EncodeOfDecodeIsTheWord : Prop :=
  ∀ (w : Word) (i : Instr), decode w = .ok i → encode i = w ∧ i.wf = true

/-- How a format uses a field (R92): scalar index, polynomial index, must be zero, or part of imm16. -/
inductive FieldUse where
  | s
  | p
  | zero
  | imm
deriving DecidableEq, Repr

/-- The uses of D, A, B, C by opcode: the format column of R95 read through the table of R92. -/
def fieldUses : Nat → Option (FieldUse × FieldUse × FieldUse × FieldUse)
  | 0x01 | 0x02 => some (.zero, .zero, .zero, .zero)
  | 0x10 => some (.s, .zero, .imm, .imm)
  | 0x14 | 0x16 | 0x17 => some (.s, .s, .zero, .zero)
  | 0x11 | 0x12 | 0x13 | 0x15 => some (.s, .s, .s, .zero)
  | 0x40 => some (.zero, .s, .zero, .zero)
  | 0x22 => some (.s, .p, .zero, .zero)
  | 0x20 | 0x30 | 0x31 => some (.s, .p, .s, .zero)
  | 0x32 => some (.s, .p, .s, .s)
  | 0x23 => some (.p, .s, .zero, .zero)
  | 0x21 => some (.p, .s, .s, .zero)
  | 0x24 | 0x25 | 0x26 | 0x41 | 0x43 | 0x46 => some (.p, .p, .zero, .zero)
  | 0x33 | 0x42 => some (.p, .p, .p, .zero)
  | 0x44 => some (.p, .p, .s, .zero)
  | 0x35 => some (.p, .p, .p, .s)
  | 0x34 | 0x45 => some (.p, .p, .p, .p)
  | _ => none

/-- A field breaks its use (R96(b), (d)). -/
def fieldIllegal (u : FieldUse) (f : Nat) : Prop :=
  match u with
  | .zero => f ≠ 0
  | .p => 8 ≤ f
  | .s | .imm => False

/-- R96: word w, its fields taken as numbers, is illegal. -/
def wordIllegal (w : Nat) : Prop :=
  match fieldUses (w / 2 ^ 24) with
  | none => True
  | some (ud, ua, ub, uc) =>
    (w / 2 ^ 24 ≠ 0x10 ∧ w % 2 ^ 8 ≠ 0) ∨ fieldIllegal ud (w / 2 ^ 20 % 16) ∨ fieldIllegal ua (w / 2 ^ 16 % 16) ∨
      fieldIllegal ub (w / 2 ^ 12 % 16) ∨ fieldIllegal uc (w / 2 ^ 8 % 16) ∨
      (w / 2 ^ 24 = 0x34 ∧ w / 2 ^ 20 % 16 = w / 2 ^ 8 % 16)

/-- R96: the decoder rejects exactly the illegal words, and performing one raises E_ILLEGAL with no other effect. -/
def Obligations.ExactlyTheIllegalWordsAreRejected : Prop :=
  (∀ w : Word, (∃ r, decode w = .error r) ↔ wordIllegal w.toNat) ∧
  ∀ s : State, wordIllegal s.inflight.toNat → perform s = .next (s.recordError .illegal s.inflight).finish

/-! ## Steps, completion and errors -/

/-- A step at which the execution unit moves runs the command in INFLIGHT: exec of it, after the unit's turn is taken off
the agenda; with an exhausted agenda exec of it in the same state. withFetchWord arranges exactly that. (The agenda is
the model's way to hold R328's free order, log 1; withFetchWord is log 2.) -/
def Obligations.StepRunsTheDecodedCommand : Prop :=
  (∀ (s : State) (i : Instr) (rest : List Move), s.busy = true → decode s.inflight = .ok i → s.agenda = .engine :: rest →
    step s = exec i { s with agenda := rest }) ∧
  (∀ (s : State) (i : Instr), s.busy = true → decode s.inflight = .ok i → s.agenda = [] → step s = exec i s) ∧
  ∀ (s : State) (i : Instr) (n w : Nat), decodeTableWord n w = some i →
    step (s.withFetchWord n w) = exec i { s with inflight := BitVec.ofNat 32 (w % 2 ^ n), busy := true, unpolled := true }

/-- R328: (a) a host access is performed when it is next, (b) the execution unit's turn does nothing when BUSY = 0,
(c) a power-on reset may come at any point; and an idle engine with nothing left to do stays as it is. (The agenda,
the idle stutter and what a reset keeps are the model's choices, log 1 and log 10.) -/
def Obligations.StepMakesTheNextMove : Prop :=
  (∀ (s : State) (a : Access) (rest : List Move), s.agenda = .access a :: rest →
    step s = .next (State.access { s with agenda := rest } a)) ∧
  (∀ (s : State) (rest : List Move), s.busy = false → s.agenda = .engine :: rest →
    step s = .next { s with agenda := rest }) ∧
  (∀ (s : State) (rest : List Move), s.agenda = .powerOn :: rest →
    step s = .next { State.reset with agenda := rest, replies := s.replies, draws := s.draws, unpolled := s.unpolled }) ∧
  ∀ s : State, s.busy = false → s.agenda = [] → step s = .next s

/-- The outcome o of performing a command in state s: it completes, with BUSY = 0 and DONE = 1. Either no error field
changes, or an error e is recorded and the state differs from s in BUSY, DONE and the error fields only. -/
def Completes (s : State) (o : Host.Outcome State Fault Refusal) : Prop :=
  ∃ t, o = .next t ∧ t.busy = false ∧ t.done = true ∧
    ((t.err = s.err ∧ t.errcode = s.errcode ∧ t.errcmd = s.errcmd ∧ t.errovf = s.errovf) ∨
      ∃ e : ErrCode,
        (s.err = false ∧
          t = { s with err := true, errcode := e.code, errcmd := s.inflight, busy := false, done := true }) ∨
        (s.err = true ∧ t = { s with errovf := true, busy := false, done := true }))

/-- R280 to R283: every command completes, legal or illegal; an error leaves everything but BUSY, DONE and the error fields
as it was. The first error sets ERR, ERRCODE and ERRCMD; a later one keeps ERRCODE and ERRCMD and sets ERROVF. -/
def Obligations.EveryCommandCompletesAndErrorsArePrecise : Prop :=
  (∀ (i : Instr) (s : State), Completes s (exec i s)) ∧ ∀ s : State, Completes s (perform s)

/-- The frame of all 30 commands: scalar registers but the destination, polynomial registers but the destinations, F_OK,
ERRCOUNT, the generator, the active configuration and tables, and every field no command writes, are unchanged. (That INFLIGHT
keeps its word after completion is the model's choice, log 9; agenda, replies, draws and unpolled are the model's own
fields, log 1, 3, 4 and 14.) -/
def Obligations.CommandFrame : Prop :=
  ∀ (i : Instr) (s t : State), exec i s = .next t →
    (∀ r : SReg, scalarDest i ≠ some r → t.readS r = s.readS r) ∧
    (∀ k : PReg, k ∉ polyDests i → t.readP k = s.readP k) ∧
    ((∀ a b c, i ≠ .rschien a b c) → (∀ a b, i ≠ .rsdec a b) → t.fOk = s.fOk) ∧
    ((∀ a b, i ≠ .rsdec a b) → t.errcount = s.errcount) ∧
    ((∀ a, i ≠ .rsgen a) → i ≠ .build → t.gpoly = s.gpoly ∧ t.gdeg = s.gdeg ∧ t.gvalid = s.gvalid) ∧
    (i ≠ .build → t.ready = s.ready ∧ t.mAct = s.mAct ∧ t.polyAct = s.polyAct ∧ t.baseAct = s.baseAct ∧
      t.expTable = s.expTable ∧ t.logTable = s.logTable) ∧
    t.cfgM = s.cfgM ∧ t.cfgPoly = s.cfgPoly ∧ t.cfgBase = s.cfgBase ∧ t.irqEn = s.irqEn ∧ t.accerr = s.accerr ∧
    t.inflight = s.inflight ∧ t.agenda = s.agenda ∧ t.replies = s.replies ∧ t.draws = s.draws ∧
    t.unpolled = s.unpolled

/-- Over a whole step (R22, R28, R29, R41): a scalar register changes only by a host access, a reset, or a command that
names it as destination; F_OK only by RSCHIEN, RSDEC or a reset; ERRCOUNT only by RSDEC or a reset; the active field only
by BUILD or a reset. R329: the host's last command counts as polled only once a STATUS read has shown BUSY = 0. A reset is a
power-on move or a soft-reset access. (Moves come from the model's agenda, log 1; the poll mark is
the model's own field, log 14.) -/
def Obligations.OnlyTheNamedMovesWrite : Prop :=
  ∀ s t : State, step s = .next t →
    (∀ m rest, s.agenda = m :: rest → m ≠ .powerOn ∧ ∀ a, m = .access a → a.softResets = false) →
    (t.fOk ≠ s.fOk → s.busy = true ∧ ((∃ a b c, decode s.inflight = .ok (.rschien a b c)) ∨
      ∃ a b, decode s.inflight = .ok (.rsdec a b))) ∧
    (t.errcount ≠ s.errcount → s.busy = true ∧ ∃ a b, decode s.inflight = .ok (.rsdec a b)) ∧
    ((t.ready ≠ s.ready ∨ t.mAct ≠ s.mAct ∨ t.polyAct ≠ s.polyAct ∨ t.baseAct ≠ s.baseAct ∨ t.expTable ≠ s.expTable ∨
      t.logTable ≠ s.logTable) → s.busy = true ∧ decode s.inflight = .ok .build) ∧
    (∀ r, t.readS r ≠ s.readS r → (∃ a rest, s.agenda = .access a :: rest) ∨
      (s.busy = true ∧ ∃ i, decode s.inflight = .ok i ∧ scalarDest i = some r)) ∧
    (s.unpolled = true → t.unpolled = false → s.busy = false ∧ ∃ rest, s.agenda = .access (.read .word 0x008) :: rest)

/-- R41, R285, R286: with READY = 0 each command that requires READY raises E_NOTREADY (whatever else is wrong but an
illegal word), and changes nothing else. (R323, the list of the commands that need no READY, is the spec's own
inference from the rules of each command.) -/
def Obligations.UnbuiltEngineRaisesNotReady : Prop :=
  ∀ (i : Instr) (s : State), i.wf = true → requiresReady i = true → s.ready = false →
    exec i s = .next (s.recordError .notReady s.inflight).finish

/-! ## Control commands -/

/-- NOP (R120) only completes. LI (R148): rd gets imm16 unchanged. Both do so READY or not. -/
def Obligations.NopAndLiResults : Prop :=
  (∀ s : State, exec .nop s = .next { s with busy := false, done := true }) ∧
  ∀ (s : State) (rd : SReg) (imm : Elem), exec (.li rd imm) s = .next (s.writeS rd imm).finish

/-- R122's valid_config, read literally: (a) m in 1..MMAX, (b) p >> m = 1, (c) base in {0, 1}, (d) e_0 .. e_(Q−1) all
nonzero and pairwise distinct and e_Q = 1, with e_k k applications of xtime to 1. -/
def ConfigIsValid (m p base : Nat) : Prop :=
  (1 ≤ m ∧ m ≤ 16) ∧ p / 2 ^ m = 1 ∧ (base = 0 ∨ base = 1) ∧
  (∀ k, k < 2 ^ m - 1 → alphaPow m p k ≠ 0) ∧
  (∀ i j, i < 2 ^ m - 1 → j < 2 ^ m - 1 → alphaPow m p i = alphaPow m p j → i = j) ∧ alphaPow m p (2 ^ m - 1) = 1

/-- R121, R122: BUILD accepts exactly the valid configurations; it then latches CFG, sets READY, builds both tables and
clears the generator; otherwise it raises E_CONFIG and keeps everything. -/
def Obligations.BuildAcceptsExactlyValidConfigurations : Prop :=
  ∀ s : State,
    (ConfigIsValid s.cfgM.toNat s.cfgPoly.toNat s.cfgBase.toNat →
      exec .build s = .next
        { s with
          ready := true, mAct := s.cfgM, polyAct := s.cfgPoly, baseAct := s.cfgBase.setWidth 1
          expTable := buildExp s.cfgM.toNat s.cfgPoly.toNat
          logTable := buildLog s.cfgM.toNat (buildExp s.cfgM.toNat s.cfgPoly.toNat)
          gvalid := false, gdeg := 0, gpoly := [], busy := false, done := true }) ∧
    (¬ ConfigIsValid s.cfgM.toNat s.cfgPoly.toNat s.cfgBase.toNat →
      exec .build s = .next (s.recordError .config s.inflight).finish)

/-- R123, R40: the tables of a valid configuration. E[0] = 1, E[i] = xtime(E[i−1]), E has Q places; Lg[0] = 0, Lg[E[i]] = i,
and Lg is a bijection from [1, Q] onto [0, Q) with E as its inverse; for m = 1, E = [1] and Lg = [0, 0]. (Basis: R123,
whose representation the spec marks as from general knowledge.) -/
def Obligations.BuildTablesArePowersAndLogarithms : Prop :=
  (∀ m p e : Nat, xtime m p e = if (2 * e).testBit m then (2 * e) ^^^ p else 2 * e) ∧
  (∀ m p : Nat, ConfigIsValid m p 0 →
    let E := buildExp m p
    let Lg := buildLog m E
    let Q := 2 ^ m - 1
    E.length = Q ∧ Lg.length = Q + 1 ∧ E.getD 0 0 = 1 ∧ Lg.getD 0 0 = 0 ∧
    (∀ i, 1 ≤ i → i < Q → (E.getD i 0).toNat = xtime m p (E.getD (i - 1) 0).toNat) ∧
    (∀ i, i < Q → (Lg.getD (E.getD i 0).toNat 0).toNat = i) ∧
    (∀ a, 1 ≤ a → a ≤ Q → (Lg.getD a 0).toNat < Q ∧ (E.getD (Lg.getD a 0).toNat 0).toNat = a)) ∧
  buildExp 1 3 = [1] ∧ buildLog 1 (buildExp 1 3) = [0, 0]

/-! ## The field -/

/-- R147: the field laws, for every valid configuration and all field elements. (R147 is the spec's own inference,
"[derived: from rules R141 to R145 ...]".) -/
def Obligations.FieldLawsHoldInEveryBuiltField : Prop :=
  ∀ m p : Nat, ConfigIsValid m p 0 → ∀ a b c : Elem, a.toNat < 2 ^ m → b.toNat < 2 ^ m → c.toNat < 2 ^ m →
    let F := builtGf m p
    (gadd a b).toNat < 2 ^ m ∧ (gmul F a b).toNat < 2 ^ m ∧ (∀ e, (gpow F a e).toNat < 2 ^ m) ∧
    gadd a a = 0 ∧ gadd a 0 = a ∧ gmul F a 1 = a ∧ gmul F a b = gmul F b a ∧
    gmul F (gmul F a b) c = gmul F a (gmul F b c) ∧ gmul F a (gadd b c) = gadd (gmul F a b) (gmul F a c) ∧
    (a ≠ 0 → gmul F a (ginvNz F a) = 1 ∧ ginvNz F (ginvNz F a) = a ∧ (ginvNz F a).toNat < 2 ^ m ∧
      (gdivNz F b a).toNat < 2 ^ m ∧ gpow F a (2 ^ m - 1) = 1) ∧
    ∀ e1 e2, gpow F a (e1 + e2) = gmul F (gpow F a e1) (gpow F a e2)

/-- The carry-less product of a and b: the XOR of a << i over the bits i of b. -/
def clmul (a b : Nat) : Nat := (List.range 16).foldl (fun r i => if b.testBit i then r ^^^ (a <<< i) else r) 0

/-- v reduced modulo p of degree m: bits m + 15 down to m are cleared by adding p << k. -/
def polyMod (m p v : Nat) : Nat :=
  (List.range 16).reverse.foldl (fun r k => if r.testBit (m + k) then r ^^^ (p <<< k) else r) v

/-- R156: gmul equals the carry-less product reduced modulo the polynomial. (R156 is marked "[from general knowledge,
not in source]".) -/
def Obligations.GmulIsTheReducedCarrylessProduct : Prop :=
  ∀ m p : Nat, ConfigIsValid m p 0 → ∀ a b : Elem, a.toNat < 2 ^ m → b.toNat < 2 ^ m →
    (gmul (builtGf m p) a b).toNat = polyMod m p (clmul a.toNat b.toNat)

/-! ## Field scalar commands. `EXP i` and `LOG a` below are the entries of the tables held in the state. -/

/-- GADD (R141, R149) and GMUL (R142, R150) on field elements; a source ≥ 2^M raises E_RANGE. -/
def Obligations.AddAndMultiplyResults : Prop :=
  ∀ (s : State) (rd a b : SReg), s.ready = true →
    let x := s.readS a
    let y := s.readS b
    let LOG := fun v : Elem => (s.logTable.getD v.toNat 0).toNat
    (s.elemS a → s.elemS b →
      exec (.gadd rd a b) s = .next (s.writeS rd (x ^^^ y)).finish ∧
      exec (.gmul rd a b) s = .next (s.writeS rd
        (if x = 0 ∨ y = 0 then 0 else s.expTable.getD ((LOG x + LOG y) % (2 ^ s.mAct.toNat - 1)) 0)).finish) ∧
    (¬ (s.elemS a ∧ s.elemS b) →
      exec (.gadd rd a b) s = .next (s.recordError .range s.inflight).finish ∧
      exec (.gmul rd a b) s = .next (s.recordError .range s.inflight).finish)

/-- GINV (R143, R152) and GDIV (R144, R151): EXP[(Q − LOG b) mod Q], and the product with it; E_DOMAIN for a zero divisor,
also when the dividend is 0; E_RANGE before it. -/
def Obligations.InverseAndDivideResults : Prop :=
  ∀ (s : State) (rd a b : SReg), s.ready = true →
    let x := s.readS a
    let y := s.readS b
    let Q := 2 ^ s.mAct.toNat - 1
    let LOG := fun v : Elem => (s.logTable.getD v.toNat 0).toNat
    let EXP := fun i : Nat => s.expTable.getD i 0
    let inv := EXP ((Q - LOG y) % Q)
    (s.elemS b → y ≠ 0 → exec (.ginv rd b) s = .next (s.writeS rd inv).finish) ∧
    (s.elemS b → y = 0 → exec (.ginv rd b) s = .next (s.recordError .domain s.inflight).finish) ∧
    (¬ s.elemS b → exec (.ginv rd b) s = .next (s.recordError .range s.inflight).finish) ∧
    (s.elemS a → s.elemS b → y ≠ 0 → exec (.gdiv rd a b) s = .next (s.writeS rd
      (if x = 0 ∨ inv = 0 then 0 else EXP ((LOG x + LOG inv) % Q))).finish) ∧
    (s.elemS a → s.elemS b → y = 0 → exec (.gdiv rd a b) s = .next (s.recordError .domain s.inflight).finish) ∧
    (¬ (s.elemS a ∧ s.elemS b) → exec (.gdiv rd a b) s = .next (s.recordError .range s.inflight).finish)

/-- GPOW (R145, R153), GEXP (R146, R154) and GLOG (R146, R155): exponents are 16-bit integers and are not range-checked;
the logarithm of 0 raises E_DOMAIN. -/
def Obligations.PowerExpAndLogResults : Prop :=
  ∀ (s : State) (rd a b : SReg), s.ready = true →
    let x := s.readS a
    let e := (s.readS b).toNat
    let Q := 2 ^ s.mAct.toNat - 1
    let EXP := fun i : Nat => s.expTable.getD i 0
    (s.elemS a → exec (.gpow rd a b) s = .next (s.writeS rd
      (if e = 0 then 1 else if x = 0 then 0 else EXP (((s.logTable.getD x.toNat 0).toNat * e) % Q))).finish) ∧
    (¬ s.elemS a → exec (.gpow rd a b) s = .next (s.recordError .range s.inflight).finish) ∧
    exec (.gexp rd b) s = .next (s.writeS rd (EXP (e % Q))).finish ∧
    (s.elemS a → x ≠ 0 → exec (.glog rd a) s = .next (s.writeS rd (s.logTable.getD x.toNat 0)).finish) ∧
    (s.elemS a → x = 0 → exec (.glog rd a) s = .next (s.recordError .domain s.inflight).finish) ∧
    (¬ s.elemS a → exec (.glog rd a) s = .next (s.recordError .range s.inflight).finish)

/-! ## Polynomial move commands -/

/-- PGET (R171) and PPUT (R172): the element at the index, E_INDEX at or past the length; PPUT changes no length and no
other element. -/
def Obligations.GetAndPutElement : Prop :=
  ∀ (s : State) (rd a b : SReg) (k : PReg),
    let i := (s.readS a).toNat
    let P := s.readP k
    (i < P.length → exec (.pget rd k a) s = .next (s.writeS rd (P.getD i 0)).finish) ∧
    (P.length ≤ i → exec (.pget rd k a) s = .next (s.recordError .index s.inflight).finish) ∧
    (i < P.length → ∃ t, exec (.pput k a b) s = .next (s.writeP k t).finish ∧ t.length = P.length ∧
      ∀ j, t.getD j 0 = if j = i then s.readS b else P.getD j 0) ∧
    (P.length ≤ i → exec (.pput k a b) s = .next (s.recordError .index s.inflight).finish)

/-- PLEN (R173): bits [15:0] of the length. PSETLEN (R174, R26): the old elements below the new length, zeros above them. -/
def Obligations.LengthReadAndSet : Prop :=
  ∀ (s : State) (rd a : SReg) (k : PReg),
    let n := (s.readS a).toNat
    exec (.plen rd k) s = .next (s.writeS rd (BitVec.ofNat 16 ((s.readP k).length % 65536))).finish ∧
    ∃ t, exec (.psetlen k a) s = .next (s.writeP k t).finish ∧ t.length = n ∧
      ∀ j, j < n → t.getD j 0 = if j < (s.readP k).length then (s.readP k).getD j 0 else 0

/-- PMOV (R175), PREV (R176) and PSTRIP (R177): the copy, the reversal, and the rest after the longest run of leading
zeros. -/
def Obligations.CopyReverseAndStrip : Prop :=
  ∀ (s : State) (pd pa : PReg),
    let P := s.readP pa
    exec (.pmov pd pa) s = .next (s.writeP pd P).finish ∧
    (∃ t, exec (.prev pd pa) s = .next (s.writeP pd t).finish ∧ t.length = P.length ∧
      ∀ i, i < P.length → t.getD i 0 = P.getD (P.length - 1 - i) 0) ∧
    ∃ z t, exec (.pstrip pd pa) s = .next (s.writeP pd t).finish ∧ P = List.replicate z 0 ++ t ∧ t.head? ≠ some 0

/-! ## Polynomial arithmetic commands -/

/-- PEVAL (R206), PEVALA (R207) and PEVALC (R208) write evalD or evalA of the whole register; E_RANGE for any operand
outside the field. -/
def Obligations.EvaluationCommandResults : Prop :=
  ∀ (s : State) (rd b c : SReg) (k : PReg), s.ready = true →
    (s.elemsP k → s.elemS b →
      exec (.peval rd k b) s = .next (s.writeS rd (evalD s.gf 0 (s.readP k) (s.readS b))).finish ∧
      exec (.pevala rd k b) s = .next (s.writeS rd (evalA s.gf (s.readP k) (s.readS b))).finish ∧
      (s.elemS c → exec (.pevalc rd k b c) s =
        .next (s.writeS rd (evalD s.gf (s.readS c) (s.readP k) (s.readS b))).finish)) ∧
    (¬ (s.elemsP k ∧ s.elemS b) →
      exec (.peval rd k b) s = .next (s.recordError .range s.inflight).finish ∧
      exec (.pevala rd k b) s = .next (s.recordError .range s.inflight).finish) ∧
    (¬ (s.elemsP k ∧ s.elemS b ∧ s.elemS c) →
      exec (.pevalc rd k b c) s = .next (s.recordError .range s.inflight).finish)

/-- R201: in a built field evalD(prior, s, x) is prior·x^n ⊕ Σ_{i<n} s[i]·x^(n−1−i), and it continues over a split sequence;
R202: evalA(s, x) is Σ_{i<n} s[i]·x^i. (R201 marks the sum as derived from its loop.) -/
def Obligations.EvaluationIsTheSumOfTerms : Prop :=
  ∀ m p : Nat, ConfigIsValid m p 0 → ∀ (prior x : Elem) (s t : Poly), prior.toNat < 2 ^ m → x.toNat < 2 ^ m →
    (∀ a ∈ s, a.toNat < 2 ^ m) →
    let F := builtGf m p
    let n := s.length
    evalD F prior s x = gadd (gmul F prior (gpow F x n))
      (gsum ((List.range n).map fun i => gmul F (s.getD i 0) (gpow F x (n - 1 - i)))) ∧
    evalD F (evalD F prior s x) t x = evalD F prior (s ++ t) x ∧
    evalA F s x = gsum ((List.range n).map fun i => gmul F (s.getD i 0) (gpow F x i))

/-- PMUL (R209): the product register, E_LENGTH for a result longer than PCAP, then E_RANGE. -/
def Obligations.MultiplyCommandResult : Prop :=
  ∀ (s : State) (pd pa pb : PReg), s.ready = true →
    let la := (s.readP pa).length
    let lb := (s.readP pb).length
    (la + lb ≤ 65537 → s.elemsP pa → s.elemsP pb →
      exec (.pmul pd pa pb) s = .next (s.writeP pd (pmul s.gf (s.readP pa) (s.readP pb))).finish) ∧
    (65537 < la + lb → exec (.pmul pd pa pb) s = .next (s.recordError .length s.inflight).finish) ∧
    (la + lb ≤ 65537 → ¬ (s.elemsP pa ∧ s.elemsP pb) →
      exec (.pmul pd pa pb) s = .next (s.recordError .range s.inflight).finish)

/-- R203: pmul is the full convolution. Its length is len(a) + len(b) − 1 (empty if an operand is), and its element k is the
sum of a[i]·b[k − i]. -/
def Obligations.ProductCoefficientsAreConvolutionSums : Prop :=
  ∀ (F : Gf) (a b : Poly),
    ((a = [] ∨ b = []) → pmul F a b = []) ∧
    (a ≠ [] → b ≠ [] → (pmul F a b).length = a.length + b.length - 1) ∧
    ∀ k, (pmul F a b).getD k 0 =
      gsum ((List.range (k + 1)).map fun i => gmul F (a.getD i 0) (b.getD (k - i) 0))

/-- PDIV (R210, R204): quotient to Pc and remainder to Pd, of the stated lengths; the short numerator case; E_DOMAIN for an
empty denominator or a zero leading coefficient; E_RANGE before it; E_ILLEGAL for pd = pc. -/
def Obligations.DivideCommandResult : Prop :=
  ∀ (s : State) (pd pa pb pc : PReg), s.ready = true →
    let a := s.readP pa
    let b := s.readP pb
    (pd ≠ pc → s.elemsP pa → s.elemsP pb → b ≠ [] → b.head? ≠ some 0 →
      ∃ q r, pdivmod s.gf a b = .ok (q, r) ∧
        exec (.pdiv pd pa pb pc) s = .next ((s.writeP pc q).writeP pd r).finish ∧
        r.length = b.length - 1 ∧ q.length = a.length + 1 - b.length ∧
        (a.length < b.length → q = [] ∧ r = List.replicate (b.length - 1 - a.length) 0 ++ a)) ∧
    (pd ≠ pc → s.elemsP pa → s.elemsP pb → (b = [] ∨ b.head? = some 0) →
      exec (.pdiv pd pa pb pc) s = .next (s.recordError .domain s.inflight).finish) ∧
    (pd ≠ pc → ¬ (s.elemsP pa ∧ s.elemsP pb) →
      exec (.pdiv pd pa pb pc) s = .next (s.recordError .range s.inflight).finish) ∧
    (pd = pc → exec (.pdiv pd pa pb pc) s = .next (s.recordError .illegal s.inflight).finish)

/-- R204: in a built field the numerator is quotient times denominator plus remainder, coefficient by coefficient.
(R204 marks this as derived from its loop.) -/
def Obligations.NumeratorIsQuotientTimesDenominatorPlusRemainder : Prop :=
  ∀ m p : Nat, ConfigIsValid m p 0 → ∀ a b q r : Poly, (∀ x ∈ a, x.toNat < 2 ^ m) → (∀ x ∈ b, x.toNat < 2 ^ m) →
    b.length ≤ a.length → pdivmod (builtGf m p) a b = .ok (q, r) →
    let F := builtGf m p
    List.zipWith gadd (pmul F q b) (List.replicate (a.length - r.length) 0 ++ r) = a ∧
    (∀ x ∈ q, x.toNat < 2 ^ m) ∧ ∀ x ∈ r, x.toNat < 2 ^ m

/-- R212: evaluation respects product, division and scaled add in every built field. (R212 is the spec's own
inference.) -/
def Obligations.EvaluationIsARingHomomorphism : Prop :=
  ∀ m p : Nat, ConfigIsValid m p 0 → ∀ (a b : Poly) (c x : Elem), (∀ y ∈ a, y.toNat < 2 ^ m) →
    (∀ y ∈ b, y.toNat < 2 ^ m) → c.toNat < 2 ^ m → x.toNat < 2 ^ m →
    let F := builtGf m p
    evalD F 0 a x = evalA F a.reverse x ∧
    (a ≠ [] → b ≠ [] → evalD F 0 (pmul F a b) x = gmul F (evalD F 0 a x) (evalD F 0 b x)) ∧
    evalD F 0 (paddsb F a b c) x = gadd (evalD F 0 a x) (gmul F c (evalD F 0 b x)) ∧
    ∀ q r, b.length ≤ a.length → pdivmod F a b = .ok (q, r) →
      evalD F 0 a x = gadd (gmul F (evalD F 0 q x) (evalD F 0 b x)) (evalD F 0 r x)

/-- PADDSB (R205, R211): length max(len(a), len(b)); place k from the constant end is a's plus s times b's, an absent place
counting as 0; E_RANGE for any operand outside the field. -/
def Obligations.ScaledAddCommandResult : Prop :=
  ∀ (s : State) (pd pa pb : PReg) (c : SReg), s.ready = true →
    let a := s.readP pa
    let b := s.readP pb
    (s.elemS c → s.elemsP pa → s.elemsP pb →
      ∃ t, exec (.paddsb pd pa pb c) s = .next (s.writeP pd t).finish ∧ t.length = max a.length b.length ∧
        ∀ k, t.reverse.getD k 0 = (if k < t.length then
          gadd (a.reverse.getD k 0) (gmul s.gf (s.readS c) (b.reverse.getD k 0)) else 0)) ∧
    (¬ (s.elemS c ∧ s.elemsP pa ∧ s.elemsP pb) →
      exec (.paddsb pd pa pb c) s = .next (s.recordError .range s.inflight).finish)

/-! ## Reed–Solomon generator and encode -/

/-- RSGEN (R232): G ← gen(d, b), GDEG ← d, GVALID ← 1; E_LENGTH for d > Q. -/
def Obligations.GeneratorCommandResult : Prop :=
  ∀ (s : State) (a : SReg), s.ready = true →
    let d := (s.readS a).toNat
    (d ≤ 2 ^ s.mAct.toNat - 1 → exec (.rsgen a) s = .next
      { s with gpoly := gen s.gf d s.baseAct.toNat, gdeg := s.readS a, gvalid := true, busy := false, done := true }) ∧
    (2 ^ s.mAct.toNat - 1 < d → exec (.rsgen a) s = .next (s.recordError .length s.inflight).finish)

/-- R231: in a built field the generator of degree d is monic of length d + 1, gen(0, b) = [1], gen(d + 1, b) is gen(d, b)
times x + α^(b+d), and its roots are α^b, …, α^(b+d−1). -/
def Obligations.GeneratorIsMonicWithTheNamedRoots : Prop :=
  ∀ m p : Nat, ConfigIsValid m p 0 → ∀ d b : Nat,
    let F := builtGf m p
    let g := gen F d b
    g.length = d + 1 ∧ g.head? = some 1 ∧ gen F 0 b = [1] ∧ gen F (d + 1) b = pmul F g [1, alpha F (b + d)] ∧
    ∀ i, i < d → evalD F 0 g (alpha F (b + i)) = 0

/-- RSENC (R233, R234): in a state the engine reaches, the ECC is the remainder of message · x^GDEG by G, of length GDEG;
E_NOGEN, E_LENGTH and E_RANGE in that order. -/
def Obligations.EncodeCommandResult : Prop :=
  ∀ (s : State) (pd pa : PReg), s.Inv → s.ready = true →
    let N := (s.readP pa).length + s.gdeg.toNat
    let Q := 2 ^ s.mAct.toNat - 1
    (s.gvalid = true → N ≤ Q → s.elemsP pa →
      ∃ q r, pdivmod s.gf (s.readP pa ++ List.replicate s.gdeg.toNat 0) s.gpoly = .ok (q, r) ∧
        r.length = s.gdeg.toNat ∧ exec (.rsenc pd pa) s = .next (s.writeP pd r).finish) ∧
    (s.gvalid = false → exec (.rsenc pd pa) s = .next (s.recordError .noGen s.inflight).finish) ∧
    (s.gvalid = true → Q < N → exec (.rsenc pd pa) s = .next (s.recordError .length s.inflight).finish) ∧
    (s.gvalid = true → N ≤ Q → ¬ s.elemsP pa →
      exec (.rsenc pd pa) s = .next (s.recordError .range s.inflight).finish)

/-- R235: every generator root is a root of an encoded block, so its syndromes are all zero. (R235 is the spec's own
inference.) -/
def Obligations.EncodedBlockHasZeroSyndromes : Prop :=
  ∀ m p : Nat, ConfigIsValid m p 0 → ∀ (d b : Nat) (msg ecc : Poly), (∀ x ∈ msg, x.toNat < 2 ^ m) →
    enc (builtGf m p) (gen (builtGf m p) d b) msg = .ok ecc →
    (∀ i, i < d → evalD (builtGf m p) 0 (msg ++ ecc) (alpha (builtGf m p) (b + i)) = 0) ∧
    syn (builtGf m p) msg ecc d b = List.replicate d 0

/-! ## Reed–Solomon decode -/

/-- RSSYN (R250, R251): place i of the result is the block message ++ ECC evaluated at α^(i+b); E_NOGEN, E_MISMATCH,
E_LENGTH and E_RANGE in that order. -/
def Obligations.SyndromeCommandResult : Prop :=
  ∀ (s : State) (pd pa pb : PReg), s.ready = true →
    let N := (s.readP pa).length + (s.readP pb).length
    let Q := 2 ^ s.mAct.toNat - 1
    let d := s.gdeg.toNat
    (s.gvalid = true → (s.readP pb).length = d → N ≤ Q → s.elemsP pa → s.elemsP pb →
      exec (.rssyn pd pa pb) s = .next (s.writeP pd ((List.range d).map fun i =>
        evalD s.gf 0 (s.readP pa ++ s.readP pb) (s.expTable.getD ((i + s.baseAct.toNat) % Q) 0))).finish) ∧
    (s.gvalid = false → exec (.rssyn pd pa pb) s = .next (s.recordError .noGen s.inflight).finish) ∧
    (s.gvalid = true → (s.readP pb).length ≠ d →
      exec (.rssyn pd pa pb) s = .next (s.recordError .mismatch s.inflight).finish) ∧
    (s.gvalid = true → (s.readP pb).length = d → Q < N →
      exec (.rssyn pd pa pb) s = .next (s.recordError .length s.inflight).finish) ∧
    (s.gvalid = true → (s.readP pb).length = d → N ≤ Q → ¬ (s.elemsP pa ∧ s.elemsP pb) →
      exec (.rssyn pd pa pb) s = .next (s.recordError .range s.inflight).finish)

/-- RSBM (R253): bm of the syndromes; E_LENGTH at PCAP and above, then E_RANGE; no generator needed. -/
def Obligations.LocatorCommandResult : Prop :=
  ∀ (s : State) (pd pa : PReg), s.ready = true →
    let n := (s.readP pa).length
    (n < 65536 → s.elemsP pa → exec (.rsbm pd pa) s = .next (s.writeP pd (bm s.gf (s.readP pa))).finish) ∧
    (65536 ≤ n → exec (.rsbm pd pa) s = .next (s.recordError .length s.inflight).finish) ∧
    (n < 65536 → ¬ s.elemsP pa → exec (.rsbm pd pa) s = .next (s.recordError .range s.inflight).finish)

/-- R252's invariants of Berlekamp–Massey: coef(C, 0) = 1, deg C ≤ L ≤ number of syndromes, bb ≠ 0; so the locator is
non-empty, ends in 1, starts with no zero, and has at most len(S) + 1 places. (R252 marks the invariants as from
general knowledge.) -/
def Obligations.LocatorLoopKeepsItsInvariants : Prop :=
  ∀ (F : Gf) (S : Poly),
    let st := bmRun F S
    coef st.c 0 = 1 ∧ (∀ j, st.l < j → coef st.c j = 0) ∧ st.l ≤ S.length ∧ st.bb ≠ 0 ∧
    (bm F S).getLast? = some 1 ∧ (bm F S).head? ≠ some 0 ∧ (bm F S).length ≤ S.length + 1

/-- R254: in a built field the connection polynomial that bm finds generates the syndromes: every discrepancy from place L on
is zero. (R254 is marked as from general knowledge.) -/
def Obligations.LocatorGeneratesTheSyndromes : Prop :=
  ∀ m p : Nat, ConfigIsValid m p 0 → ∀ S : Poly, (∀ x ∈ S, x.toNat < 2 ^ m) →
    let F := builtGf m p
    let st := bmRun F S
    ∀ n, st.l ≤ n → n < S.length →
      gadd (S.getD n 0) (gsum ((List.range st.l).map fun j => gmul F (coef st.c (j + 1)) (S.getD (n - (j + 1)) 0))) = 0

/-- RSCHIEN (R256): the locations of chien and F_OK; E_LENGTH for N > Q, then E_RANGE; no generator needed. -/
def Obligations.RootSearchCommandResult : Prop :=
  ∀ (s : State) (pd pa : PReg) (b : SReg), s.ready = true →
    let N := (s.readS b).toNat
    let Q := 2 ^ s.mAct.toNat - 1
    (N ≤ Q → s.elemsP pa → exec (.rschien pd pa b) s = .next
      { s.writeP pd (chien s.gf (s.readP pa) N).1 with
        fOk := (chien s.gf (s.readP pa) N).2, busy := false, done := true }) ∧
    (Q < N → exec (.rschien pd pa b) s = .next (s.recordError .length s.inflight).finish) ∧
    (N ≤ Q → ¬ s.elemsP pa → exec (.rschien pd pa b) s = .next (s.recordError .range s.inflight).finish)

/-- R255: for a block of at most 65536 places, position p is a location exactly when the locator, read in ascending order,
vanishes at α^(N−1−p); locations come in decreasing position; ok says that their number is len(Λ) − 1, an integer
comparison. -/
def Obligations.RootSearchFindsExactlyTheRoots : Prop :=
  ∀ (F : Gf) (lam : Poly) (n : Nat), n ≤ 65536 →
    let locs := (chien F lam n).1.map BitVec.toNat
    (∀ p, p ∈ locs ↔ p < n ∧ evalA F lam (alpha F (n - 1 - p)) = 0) ∧
    locs.Pairwise (fun x y => x > y) ∧
    ((chien F lam n).2 = true ↔ (locs.length : Int) = (lam.length : Int) - 1)

/-- RSFORNEY (R264, R259): in a state the engine reaches, distinct locations below N complete with the corrected message, and
a repeated location raises E_DOMAIN; E_LENGTH, then E_RANGE, come first. -/
def Obligations.ForneyCommandResult : Prop :=
  ∀ (s : State) (pd pa pb pc : PReg), s.Inv → s.ready = true →
    let N := (s.readP pd).length + (s.readP pa).length
    let Q := 2 ^ s.mAct.toNat - 1
    let inRange := s.elemsP pd ∧ s.elemsP pa ∧ s.elemsP pb ∧ ∀ x ∈ s.readP pc, x.toNat < N
    (N ≤ Q → s.readP pb ≠ [] → inRange → (s.readP pc).Nodup →
      ∃ out, forney s.gf (s.readP pd) (s.readP pa) (s.readP pb) (s.readP pc) s.baseAct.toNat = .ok out ∧
        exec (.rsforney pd pa pb pc) s = .next (s.writeP pd out).finish) ∧
    (N ≤ Q → s.readP pb ≠ [] → inRange → ¬ (s.readP pc).Nodup →
      exec (.rsforney pd pa pb pc) s = .next (s.recordError .domain s.inflight).finish) ∧
    ((Q < N ∨ s.readP pb = []) → exec (.rsforney pd pa pb pc) s = .next (s.recordError .length s.inflight).finish) ∧
    (N ≤ Q → s.readP pb ≠ [] → ¬ inRange →
      exec (.rsforney pd pa pb pc) s = .next (s.recordError .range s.inflight).finish)

/-- R258 to R262: what forney answers. With X_i the position elements and Ω the truncated product S·Λ, each message place
named by a location is XORed with that location's magnitude Ω(X_i^(−1))·X_i^(−b)/D_i, and every other place is kept. -/
def Obligations.ForneyAppliesTheMagnitudes : Prop :=
  ∀ (F : Gf) (msg S lam locs out : Poly) (b : Nat), locs.Nodup → forney F msg S lam locs b = .ok out →
    let N := msg.length + S.length
    let X := fun i : Nat => alpha F (N - 1 - (locs.getD i 0).toNat)
    let om := (List.range (lam.length - 1)).map fun d =>
      gsum ((List.range (min (d + 1) S.length)).map fun j => gmul F (S.getD j 0) (lam.getD (lam.length - 1 - (d - j)) 0))
    let D := fun i : Nat => gprod F (((List.range locs.length).filter fun j => j != i).map fun j =>
      gadd 1 (gmul F (ginvNz F (X i)) (X j)))
    out.length = msg.length ∧
    (∀ i, i < locs.length → (locs.getD i 0).toNat < msg.length →
      out.getD (locs.getD i 0).toNat 0 = gadd (msg.getD (locs.getD i 0).toNat 0)
        (gdivNz F (gmul F (evalA F om (ginvNz F (X i))) (gpow F (ginvNz F (X i)) b)) (D i))) ∧
    ∀ q, (∀ x ∈ locs, x.toNat ≠ q) → out.getD q 0 = msg.getD q 0

/-- RSDEC (R265, R266): in a state the engine reaches, with a matching ECC, N ≤ Q and elements in range, no error is raised:
a failed root count gives F_OK = 0, ERRCOUNT = 0 and the message unchanged; otherwise F_OK = 1, ERRCOUNT = the number of
locations and the message is forney's. E_NOGEN, E_MISMATCH, E_LENGTH and E_RANGE in that order. -/
def Obligations.DecodeCommandResult : Prop :=
  ∀ (s : State) (pd pa : PReg), s.Inv → s.ready = true →
    let msg := s.readP pd
    let ecc := s.readP pa
    let N := msg.length + ecc.length
    let Q := 2 ^ s.mAct.toNat - 1
    let d := s.gdeg.toNat
    let S := syn s.gf msg ecc d s.baseAct.toNat
    let lam := bm s.gf S
    (s.gvalid = true → ecc.length = d → N ≤ Q → s.elemsP pd → s.elemsP pa →
      ((chien s.gf lam N).2 = false → exec (.rsdec pd pa) s = .next
        { s with fOk := false, errcount := 0, busy := false, done := true }) ∧
      ((chien s.gf lam N).2 = true → ∃ out, forney s.gf msg S lam (chien s.gf lam N).1 s.baseAct.toNat = .ok out ∧
        exec (.rsdec pd pa) s = .next
          { s.writeP pd out with
            fOk := true, errcount := BitVec.ofNat 16 (chien s.gf lam N).1.length, busy := false, done := true })) ∧
    (s.gvalid = false → exec (.rsdec pd pa) s = .next (s.recordError .noGen s.inflight).finish) ∧
    (s.gvalid = true → ecc.length ≠ d → exec (.rsdec pd pa) s = .next (s.recordError .mismatch s.inflight).finish) ∧
    (s.gvalid = true → ecc.length = d → Q < N →
      exec (.rsdec pd pa) s = .next (s.recordError .length s.inflight).finish) ∧
    (s.gvalid = true → ecc.length = d → N ≤ Q → ¬ (s.elemsP pd ∧ s.elemsP pa) →
      exec (.rsdec pd pa) s = .next (s.recordError .range s.inflight).finish)

/-- R267(a): decoding a message with the ECC that RSENC just made for it succeeds with F_OK = 1, ERRCOUNT = 0, no error, and
the message and its ECC unchanged. (R267 marks (a) as derived.) -/
def Obligations.EncodeThenDecodeRoundTrip : Prop :=
  ∀ (s : State) (pm pe : PReg), s.Inv → s.ready = true → s.gvalid = true → pm ≠ pe → s.elemsP pm →
    (s.readP pm).length + s.gdeg.toNat ≤ 2 ^ s.mAct.toNat - 1 →
    ∃ t u, exec (.rsenc pe pm) s = .next t ∧ exec (.rsdec pm pe) t = .next u ∧ u.fOk = true ∧ u.errcount = 0 ∧
      u.err = s.err ∧ u.errovf = s.errovf ∧ u.readP pm = s.readP pm ∧ u.readP pe = t.readP pe

/-- The case t = 1 of R267(b): with GDEG ≥ 2 any one wrong element of the block, in the message or in the ECC, is
corrected: F_OK = 1, ERRCOUNT = 1, no error, and the message register holds the message that was encoded. (R267 marks
(b) as from general knowledge.) -/
def Obligations.DecodeCorrectsEverySingleError : Prop :=
  ∀ (s : State) (pm pe : PReg), s.Inv → s.ready = true → s.gvalid = true → pm ≠ pe → s.elemsP pm →
    (s.readP pm).length + s.gdeg.toNat ≤ 2 ^ s.mAct.toNat - 1 → 2 ≤ s.gdeg.toNat →
    ∃ t, exec (.rsenc pe pm) s = .next t ∧
      ∀ (p : Nat) (e : Elem), p < (s.readP pm).length + s.gdeg.toNat → e ≠ 0 → e.toNat < 2 ^ s.mAct.toNat →
        let k := (s.readP pm).length
        let bad := if p < k then t.writeP pm ((t.readP pm).set p (gadd ((t.readP pm).getD p 0) e))
          else t.writeP pe ((t.readP pe).set (p - k) (gadd ((t.readP pe).getD (p - k) 0) e))
        ∃ u, exec (.rsdec pm pe) bad = .next u ∧ u.fOk = true ∧ u.errcount = 1 ∧ u.err = s.err ∧
          u.errovf = s.errovf ∧ u.readP pm = s.readP pm

/-! ## The host's accesses -/

/-- Idle word reads of the fixed registers (R31 to R39): the value goes to the host and nothing of the engine
changes (R69). (The word returned stands at the head of the model's replies, log 3; a STATUS read also clears the model's
poll mark, log 14.) -/
def Obligations.IdleReadsOfTheFixedRegisters : Prop :=
  ∀ s : State, s.busy = false →
    let rd := fun (a : Addr) (v : Word) => s.access (.read .word a) = { s with replies := v :: s.replies }
    rd 0x000 0x47460110 ∧ rd 0x004 (if s.irqEn then 1 else 0) ∧ rd 0x00C 0 ∧
    s.access (.read .word 0x008) = { s with replies := s.statusWord :: s.replies, unpolled := false } ∧
    rd 0x010 (BitVec.ofNat 32 s.cfgM.toNat) ∧ rd 0x014 (BitVec.ofNat 32 s.cfgPoly.toNat) ∧
    rd 0x018 (BitVec.ofNat 32 s.cfgBase.toNat) ∧
    rd 0x01C (if s.ready then BitVec.ofNat 32 (s.mAct.toNat + 256 * s.baseAct.toNat) else 0) ∧
    rd 0x020 (if s.ready then BitVec.ofNat 32 s.polyAct.toNat else 0) ∧ rd 0x024 (if s.err then s.errcmd else 0) ∧
    rd 0x028 (BitVec.ofNat 32 s.errcount.toNat) ∧ rd 0x02C (if s.gvalid then BitVec.ofNat 32 s.gdeg.toNat else 0) ∧
    rd 0x030 0x00010000

/-- R33, R43, R288: the bits of the STATUS word, and irq = DONE ∧ IRQ_EN. -/
def Obligations.StatusWordShowsTheFlags : Prop :=
  ∀ s : State,
    s.statusWord.getLsbD 0 = s.busy ∧ s.statusWord.getLsbD 1 = s.ready ∧ s.statusWord.getLsbD 2 = s.done ∧
    s.statusWord.getLsbD 3 = s.err ∧ s.statusWord.getLsbD 4 = s.fOk ∧ s.statusWord.getLsbD 5 = s.accerr ∧
    s.statusWord.getLsbD 6 = s.gvalid ∧ s.statusWord.getLsbD 7 = s.errovf ∧
    s.statusWord.extractLsb' 8 8 = s.errcode ∧ s.statusWord.extractLsb' 16 16 = 0 ∧
    s.irq = (s.done && s.irqEn)

/-- R33, R34 to R36, R284, R289: a STATUS write clears the W1C bits it names, and with ERR also ERRCODE and ERRCMD, whatever
BUSY is; idle CFG writes store their low bits and touch nothing of the active configuration. -/
def Obligations.StatusAndConfigWrites : Prop :=
  ∀ (s : State) (v : Word),
    s.access (.write .word 0x008 v) =
      { s with
        done := if v.getLsbD 2 then false else s.done, err := if v.getLsbD 3 then false else s.err
        errcode := if v.getLsbD 3 then 0 else s.errcode, errcmd := if v.getLsbD 3 then 0 else s.errcmd
        accerr := if v.getLsbD 5 then false else s.accerr, errovf := if v.getLsbD 7 then false else s.errovf } ∧
    (s.busy = false →
      s.access (.write .word 0x010 v) = { s with cfgM := BitVec.ofNat 5 v.toNat } ∧
      s.access (.write .word 0x014 v) = { s with cfgPoly := BitVec.ofNat 17 v.toNat } ∧
      s.access (.write .word 0x018 v) = { s with cfgBase := BitVec.ofNat 2 v.toNat })

/-- R32, R320 to R322: CTRL reads IRQ_EN in bit 0 and 0 elsewhere. A CTRL write with bit 1 = 0 sets IRQ_EN to bit 0; with
bit 1 = 1, whatever BUSY and bit 0 are, it puts every piece of the engine's state at its reset value, so the command in
execution is discarded and IRQ_EN = 0. (That a reset keeps the model's own fields agenda, replies, draws and unpolled is the
model's choice, log 10; the word a read returns stands at the head of replies, log 3.) -/
def Obligations.CtrlWriteEnablesOrResets : Prop :=
  ∀ (s : State) (v : Word),
    s.access (.read .word 0x004) = { s with replies := (if s.irqEn then 1 else 0) :: s.replies } ∧
    (v.getLsbD 1 = false → s.access (.write .word 0x004 v) = { s with irqEn := v.getLsbD 0 }) ∧
    (v.getLsbD 1 = true → s.access (.write .word 0x004 v) =
      { State.reset with agenda := s.agenda, replies := s.replies, draws := s.draws, unpolled := s.unpolled })

/-- R42, R325: a CMD write with BUSY = 0 puts the word in INFLIGHT and sets BUSY; with BUSY = 1 it is dropped with ACCERR.
R329: after an accepted CMD write the run is not over; a STATUS read that shows BUSY = 0 ends it when the host has no move left.
(The poll mark is the model's own field, log 14; the host's moves left are the model's agenda, log 1.) -/
def Obligations.CmdWriteIssuesOrIsDropped : Prop :=
  ∀ (s : State) (w : Word),
    (s.busy = false →
      s.access (.write .word 0x00C w) = { s with inflight := w, busy := true, unpolled := true } ∧
      ¬ (s.access (.write .word 0x00C w)).ended ∧ (s.agenda = [] → (s.access (.read .word 0x008)).ended)) ∧
    (s.busy = true → s.access (.write .word 0x00C w) = { s with accerr := true })

/-- R46, R47: idle accesses to Si and PLENk. Si keeps 16 bits and S0 discards; PLENk takes bits [16:0], sets the length with
zero fill, and above PCAP changes nothing and sets ACCERR.
(The word a read returns stands at the head of the model's replies, log 3.) -/
def Obligations.ScalarAndLengthRegisterAccesses : Prop :=
  ∀ (s : State) (i : SReg) (k : PReg) (v : Word), s.busy = false →
    let sa := BitVec.ofNat 24 (0x040 + 4 * i.val)
    let pa := BitVec.ofNat 24 (0x080 + 4 * k.val)
    s.access (.read .word sa) = { s with replies := BitVec.ofNat 32 (s.readS i).toNat :: s.replies } ∧
    s.access (.write .word sa v) = s.writeS i (BitVec.ofNat 16 v.toNat) ∧
    s.access (.read .word pa) = { s with replies := BitVec.ofNat 32 (s.readP k).length :: s.replies } ∧
    (v.toNat % 2 ^ 17 ≤ 65536 → ∃ t, s.access (.write .word pa v) = s.writeP k t ∧ t.length = v.toNat % 2 ^ 17 ∧
      ∀ j, j < v.toNat % 2 ^ 17 → t.getD j 0 = if j < (s.readP k).length then (s.readP k).getD j 0 else 0) ∧
    (65536 < v.toNat % 2 ^ 17 → s.access (.write .word pa v) = { s with accerr := true })

/-- R64: idle accesses to the polynomial windows. A read past the length is 0 without ACCERR; a write past it changes nothing
and sets ACCERR. (The word a read returns stands at the head of the model's replies, log 3.) -/
def Obligations.PolynomialWindowAccesses : Prop :=
  ∀ (s : State) (k : PReg) (i : Nat) (v : Word), s.busy = false → i < 65536 →
    let a := BitVec.ofNat 24 (0x100000 + 0x40000 * k.val + 4 * i)
    let P := s.readP k
    s.access (.read .word a) =
      { s with replies := (if i < P.length then BitVec.ofNat 32 (P.getD i 0).toNat else 0) :: s.replies } ∧
    (i < P.length → s.access (.write .word a v) = s.writeP k (P.set i (BitVec.ofNat 16 v.toNat))) ∧
    (P.length ≤ i → s.access (.write .word a v) = { s with accerr := true })

/-- R65, R66: idle accesses to the EXP, LOG and G windows: the tables and G where they exist, else 0; writes are access
errors. (The word a read returns stands at the head of the model's replies, log 3.) -/
def Obligations.TableAndGeneratorWindowAccesses : Prop :=
  ∀ (s : State) (i : Nat) (v : Word), s.busy = false → i < 65536 →
    let e := BitVec.ofNat 24 (0x040000 + 4 * i)
    let l := BitVec.ofNat 24 (0x080000 + 4 * i)
    let g := BitVec.ofNat 24 (0x0C0000 + 4 * i)
    let Q := 2 ^ s.mAct.toNat - 1
    let rd := fun (a : Addr) (w : Word) => s.access (.read .word a) = { s with replies := w :: s.replies }
    rd e (if s.ready = true ∧ i < Q then BitVec.ofNat 32 (s.expTable.getD i 0).toNat else 0) ∧
    rd l (if s.ready = true ∧ 1 ≤ i ∧ i ≤ Q then BitVec.ofNat 32 (s.logTable.getD i 0).toNat else 0) ∧
    rd g (if s.gvalid = true ∧ i ≤ s.gdeg.toNat then BitVec.ofNat 32 (s.gpoly.getD i 0).toNat else 0) ∧
    s.access (.write .word e v) = { s with accerr := true } ∧ s.access (.write .word l v) = { s with accerr := true } ∧
    s.access (.write .word g v) = { s with accerr := true }

/-- R62, R67, R68, R293: an access of another size or alignment, an access to a reserved offset, and a write to a read-only
register change nothing and set ACCERR, busy or not; such a read returns 0. (That a reserved offset reads so while BUSY = 1
is the model's reading, log 5; the word a read returns stands at the head of the model's replies, log 3.) -/
def Obligations.AccessErrorsOnlySetAccerr : Prop :=
  ∀ (s : State) (size : AccessSize) (a : Addr) (v : Word),
    let o := a.toNat
    let reserved := (0x034 ≤ o ∧ o < 0x040) ∨ (0x0A0 ≤ o ∧ o < 0x040000) ∨ 0x300000 ≤ o
    let readOnly := o = 0x000 ∨ o = 0x01C ∨ o = 0x020 ∨ o = 0x024 ∨ o = 0x028 ∨ o = 0x02C ∨ o = 0x030
    ((size ≠ .word ∨ o % 4 ≠ 0 ∨ reserved) →
      s.access (.read size a) = { s with accerr := true, replies := 0 :: s.replies } ∧
      s.access (.write size a v) = { s with accerr := true }) ∧
    (readOnly → s.access (.write size a v) = { s with accerr := true })

/-- R326: word accesses while BUSY = 1. A write to anything but CTRL and STATUS only sets ACCERR; a read of ID, CTRL, STATUS,
CMD or CAP answers its value; a read of any other register or window answers the next free value (which the statement holds
for, whatever it is) and changes nothing else. (The free value is log 4, the replies are log 3; a reserved offset is left to
AccessErrorsOnlySetAccerr, log 5.) -/
def Obligations.BusyAccessesAreRefusedOrUnspecified : Prop :=
  ∀ (s : State) (a : Addr) (v : Word), s.busy = true → a.toNat % 4 = 0 →
    let o := a.toNat
    let reserved := (0x034 ≤ o ∧ o < 0x040) ∨ (0x0A0 ≤ o ∧ o < 0x040000) ∨ 0x300000 ≤ o
    (o ≠ 0x004 → o ≠ 0x008 → s.access (.write .word a v) = { s with accerr := true }) ∧
    (o = 0x000 → s.access (.read .word a) = { s with replies := 0x47460110 :: s.replies }) ∧
    (o = 0x004 → s.access (.read .word a) = { s with replies := (if s.irqEn then 1 else 0) :: s.replies }) ∧
    (o = 0x008 → s.access (.read .word a) = { s with replies := s.statusWord :: s.replies }) ∧
    (o = 0x00C → s.access (.read .word a) = { s with replies := 0 :: s.replies }) ∧
    (o = 0x030 → s.access (.read .word a) = { s with replies := 0x00010000 :: s.replies }) ∧
    (¬ reserved → o ≠ 0x000 → o ≠ 0x004 → o ≠ 0x008 → o ≠ 0x00C → o ≠ 0x030 →
      ∃ w, s.access (.read .word a) = { s with replies := w :: s.replies, draws := s.draws + 1 })

/-- R69: no read has a side effect on the engine: it changes at most ACCERR, for an access error, and the model's own fields:
the host's replies (log 3), the count of draws (log 4) and, for an idle read of STATUS, the poll mark (log 14). -/
def Obligations.ReadsHaveNoSideEffect : Prop :=
  ∀ (s : State) (size : AccessSize) (a : Addr),
    ∃ w d e u, s.access (.read size a) =
        { s with replies := w :: s.replies, draws := d, accerr := e, unpolled := u } ∧
      (a ≠ 0x008 ∨ s.busy = true → u = s.unpolled) ∧
      (s.busy = false → d = s.draws) ∧ (size = .word → a.toNat % 4 = 0 → a.toNat < 0x034 → e = s.accerr)

/-- R72(d), R326: whatever the host does while a command is in execution, but a soft reset, the command stays in execution
and its result is the same: every register, the generator, F_OK, ERRCOUNT and the active field. -/
def Obligations.HostCannotDisturbACommandInExecution : Prop :=
  ∀ (s t t' : State) (i : Instr) (acc : List Access), s.busy = true → (∀ a ∈ acc, a.softResets = false) →
    let s' := acc.foldl State.access s
    exec i s = .next t → exec i s' = .next t' →
      s'.busy = true ∧ s'.inflight = s.inflight ∧
      t'.sregs = t.sregs ∧ t'.pregs = t.pregs ∧ t'.gpoly = t.gpoly ∧ t'.gdeg = t.gdeg ∧ t'.gvalid = t.gvalid ∧
      t'.fOk = t.fOk ∧ t'.errcount = t.errcount ∧ t'.ready = t.ready ∧ t'.mAct = t.mAct ∧ t'.polyAct = t.polyAct ∧
      t'.baseAct = t.baseAct ∧ t'.expTable = t.expTable ∧ t'.logTable = t.logTable
end

