-- ==== Sys2Proof/Laws/Poly.lean ====
section
/-! SUPPORT. The lengths and elementary shapes of the sequence and codec functions, one lemma per function. -/

namespace Sys2Proof.Machine

variable (F : Gf)

@[simp] theorem zeros_length (n : Nat) : (zeros n).length = n := by simp [zeros]

@[simp] theorem setLen_length (n : Nat) (s : Poly) : (setLen n s).length = n := by
  simp [setLen]; omega

/-- Below the new length the old elements stay, and new places hold 0 (R26). -/
theorem setLen_getD (n : Nat) (s : Poly) (i : Nat) : (setLen n s).getD i 0 = if i < n then s.getD i 0 else 0 := by
  unfold setLen zeros
  simp only [List.getD_eq_getElem?_getD, List.getElem?_append, List.getElem?_take, List.length_take,
    List.getElem?_replicate]
  by_cases h : i < n
  · by_cases h2 : i < s.length
    · simp [h, h2]
    · simp [h, h2]
      split <;> rfl
  · have h1 : ¬ i < min n s.length := by omega
    have h2 : ¬ i - min n s.length < n - s.length := by omega
    simp [h, h1, h2]

theorem strip_length_le (s : Poly) : (strip s).length ≤ s.length := by
  unfold strip; exact (List.dropWhile_sublist _).length_le

@[simp] theorem scale_length (c : Elem) (s : Poly) : (scale F c s).length = s.length := by simp [scale]

@[simp] theorem addAtFront_length (s t : Poly) : (addAtFront s t).length = max s.length t.length := by
  induction s generalizing t with
  | nil => simp [addAtFront]
  | cons a s ih =>
    cases t with
    | nil => simp [addAtFront]
    | cons b t => simp [addAtFront, ih]

/-- addAtFront adds place by place, an absent place counting as 0. -/
theorem addAtFront_getD (s t : Poly) (i : Nat) : (addAtFront s t).getD i 0 = gadd (s.getD i 0) (t.getD i 0) := by
  induction s generalizing t i with
  | nil => simp [addAtFront, gadd]
  | cons a s ih =>
    cases t with
    | nil => simp [addAtFront, gadd]
    | cons b t =>
      cases i with
      | zero => simp [addAtFront]
      | succ i => simpa [addAtFront] using ih t i

theorem convolve_length (b : Poly) (h : b ≠ []) : ∀ a : Poly, a ≠ [] → (convolve F b a).length = a.length + b.length - 1
  | [], ha => absurd rfl ha
  | [x], _ => by
    have : 0 < b.length := List.length_pos_of_ne_nil h
    simp [convolve]; omega
  | x :: y :: t, _ => by
    have ih := convolve_length b h (y :: t) (by simp)
    have : 0 < b.length := List.length_pos_of_ne_nil h
    rw [convolve, addAtFront_length, List.length_cons, ih]
    simp; omega

theorem pmul_length (a b : Poly) (ha : a ≠ []) (hb : b ≠ []) : (pmul F a b).length = a.length + b.length - 1 := by
  rw [pmul, if_neg hb, convolve_length F b hb a ha]

@[simp] theorem pmul_nil_left (b : Poly) : pmul F [] b = [] := by unfold pmul; split <;> rfl
@[simp] theorem pmul_nil_right (a : Poly) : pmul F a [] = [] := rfl

/-- The division loop's quotient has one element per pass, and it leaves the rest of the working sequence. -/
theorem divLoop_length (b0 : Elem) (bt : Poly) (n : Nat) (w : Poly) (h : n + bt.length ≤ w.length) :
    (divLoop F b0 bt n w).1.length = n ∧ (divLoop F b0 bt n w).2.length = w.length - n := by
  induction n generalizing w with
  | zero => simp [divLoop]
  | succ n ih =>
    cases w with
    | nil => simp at h
    | cons x t =>
      have h' : n + bt.length ≤ t.length := by simp at h; omega
      have hl : (addAtFront t (scale F (gdivNz F x b0) bt)).length = t.length := by simp; omega
      have := ih (addAtFront t (scale F (gdivNz F x b0) bt)) (by omega)
      simp only [divLoop, List.length_cons]
      constructor
      · rw [this.1]
      · rw [this.2, hl]; omega

/-- Division answers a quotient and a remainder of the stated lengths, or E_DOMAIN (R204). -/
theorem pdivmod_cases (a b : Poly) :
    ((b = [] ∨ b.head? = some 0) ∧ pdivmod F a b = .error .domain) ∨
      ∃ q r, b ≠ [] ∧ b.head? ≠ some 0 ∧ pdivmod F a b = .ok (q, r) ∧ r.length = b.length - 1 ∧
        q.length = a.length + 1 - b.length := by
  cases b with
  | nil => exact .inl ⟨.inl rfl, rfl⟩
  | cons b0 bt =>
    by_cases h0 : b0 = 0
    · exact .inl ⟨.inr (by simp [h0]), by simp [pdivmod, h0]⟩
    · refine .inr ?_
      by_cases hl : a.length < (b0 :: bt).length
      · refine ⟨[], zeros ((b0 :: bt).length - 1 - a.length) ++ a, by simp, by simpa using h0, ?_, ?_, ?_⟩
        · simp only [pdivmod, if_neg h0, if_pos hl]
        · simp at hl ⊢; omega
        · simp at hl ⊢; omega
      · have hd := divLoop_length F b0 bt (a.length - (b0 :: bt).length + 1) a (by simp at hl ⊢; omega)
        refine ⟨_, _, by simp, by simpa using h0, by simp only [pdivmod, if_neg h0, if_neg hl]; rfl, ?_, ?_⟩
        · rw [hd.2]; simp at hl ⊢; omega
        · rw [hd.1]; simp at hl ⊢; omega

@[simp] theorem padLeft_length (n : Nat) (s : Poly) : (padLeft n s).length = max n s.length := by
  simp [padLeft]; omega

@[simp] theorem paddsb_length (a b : Poly) (s : Elem) : (paddsb F a b s).length = max a.length b.length := by
  simp [paddsb]

/-- Horner evaluation over a split sequence: polyEvalContinue (R201). -/
theorem evalD_append (prior : Elem) (s t : Poly) (x : Elem) :
    evalD F prior (s ++ t) x = evalD F (evalD F prior s x) t x := by simp [evalD]

@[simp] theorem evalD_nil (prior x : Elem) : evalD F prior [] x = prior := rfl

theorem gen_succ (d b : Nat) : gen F (d + 1) b = pmul F (gen F d b) [1, alpha F (b + d)] := by
  simp [gen, List.range_succ]

@[simp] theorem gen_length (d b : Nat) : (gen F d b).length = d + 1 := by
  induction d with
  | zero => simp [gen]
  | succ d ih =>
    rw [gen_succ, pmul_length F _ _ (by intro h; simp [h] at ih) (by simp), ih]; simp

theorem enc_length {g msg e : Poly} (h : enc F g msg = .ok e) : e.length = g.length - 1 := by
  unfold enc at h
  rcases pdivmod_cases F (msg ++ zeros (g.length - 1)) g with ⟨-, hp⟩ | ⟨q, r, -, -, hp, hr, -⟩
  · simp [hp] at h
  · simp [hp] at h; rw [← h, hr]

@[simp] theorem syn_length (msg ecc : Poly) (d b : Nat) : (syn F msg ecc d b).length = d := by simp [syn]

theorem chienLocs_length_le (lam : Poly) (n : Nat) : (chienLocs F lam n).length ≤ n := by
  unfold chienLocs
  rw [List.length_map]
  exact (List.length_filter_le _ _).trans (by simp)

@[simp] theorem chien_fst (lam : Poly) (n : Nat) : (chien F lam n).1 = chienLocs F lam n := rfl

@[simp] theorem applyAt_length (msg : Poly) (p : Nat) (y : Elem) : (applyAt msg p y).length = msg.length := by
  unfold applyAt; split <;> simp

@[simp] theorem applyAll_length (msg locs ys : Poly) : (applyAll msg locs ys).length = msg.length := by
  unfold applyAll
  generalize locs.zip ys = l
  induction l generalizing msg with
  | nil => rfl
  | cons p l ih => simp [ih]

theorem forney_length {msg S lam locs out : Poly} {b : Nat} (h : forney F msg S lam locs b = .ok out) :
    out.length = msg.length := by
  unfold forney at h
  simp only at h
  split at h
  · cases h
  · cases h; simp

theorem dec_length {msg ecc out : Poly} {d b cnt : Nat} {ok : Bool} (h : dec F msg ecc d b = .ok (out, ok, cnt)) :
    out.length = msg.length := by
  unfold dec at h
  simp only at h
  split at h
  · split at h
    · rename_i hf; cases h; exact forney_length F hf
    · cases h
  · cases h; rfl

end Sys2Proof.Machine
end

