-- ==== Sys2Proof/Laws/State.lean ====
section
/-! SUPPORT. What each state update does to each field, true by rfl: later proofs rewrite with these and unfold no update. -/

namespace Sys2Proof.Machine

variable (s : State)

/-! ## State.writeS -/

@[simp] theorem State.writeS_sregs (r : SReg) (v : Elem) : (s.writeS r v).sregs = if r = 0 then s.sregs else s.sregs.set r v := rfl
@[simp] theorem State.writeS_pregs (r : SReg) (v : Elem) : (s.writeS r v).pregs = s.pregs := rfl
@[simp] theorem State.writeS_gpoly (r : SReg) (v : Elem) : (s.writeS r v).gpoly = s.gpoly := rfl
@[simp] theorem State.writeS_gvalid (r : SReg) (v : Elem) : (s.writeS r v).gvalid = s.gvalid := rfl
@[simp] theorem State.writeS_gdeg (r : SReg) (v : Elem) : (s.writeS r v).gdeg = s.gdeg := rfl
@[simp] theorem State.writeS_fOk (r : SReg) (v : Elem) : (s.writeS r v).fOk = s.fOk := rfl
@[simp] theorem State.writeS_errcount (r : SReg) (v : Elem) : (s.writeS r v).errcount = s.errcount := rfl
@[simp] theorem State.writeS_ready (r : SReg) (v : Elem) : (s.writeS r v).ready = s.ready := rfl
@[simp] theorem State.writeS_mAct (r : SReg) (v : Elem) : (s.writeS r v).mAct = s.mAct := rfl
@[simp] theorem State.writeS_polyAct (r : SReg) (v : Elem) : (s.writeS r v).polyAct = s.polyAct := rfl
@[simp] theorem State.writeS_baseAct (r : SReg) (v : Elem) : (s.writeS r v).baseAct = s.baseAct := rfl
@[simp] theorem State.writeS_expTable (r : SReg) (v : Elem) : (s.writeS r v).expTable = s.expTable := rfl
@[simp] theorem State.writeS_logTable (r : SReg) (v : Elem) : (s.writeS r v).logTable = s.logTable := rfl
@[simp] theorem State.writeS_cfgM (r : SReg) (v : Elem) : (s.writeS r v).cfgM = s.cfgM := rfl
@[simp] theorem State.writeS_cfgPoly (r : SReg) (v : Elem) : (s.writeS r v).cfgPoly = s.cfgPoly := rfl
@[simp] theorem State.writeS_cfgBase (r : SReg) (v : Elem) : (s.writeS r v).cfgBase = s.cfgBase := rfl
@[simp] theorem State.writeS_irqEn (r : SReg) (v : Elem) : (s.writeS r v).irqEn = s.irqEn := rfl
@[simp] theorem State.writeS_done (r : SReg) (v : Elem) : (s.writeS r v).done = s.done := rfl
@[simp] theorem State.writeS_err (r : SReg) (v : Elem) : (s.writeS r v).err = s.err := rfl
@[simp] theorem State.writeS_errovf (r : SReg) (v : Elem) : (s.writeS r v).errovf = s.errovf := rfl
@[simp] theorem State.writeS_accerr (r : SReg) (v : Elem) : (s.writeS r v).accerr = s.accerr := rfl
@[simp] theorem State.writeS_errcode (r : SReg) (v : Elem) : (s.writeS r v).errcode = s.errcode := rfl
@[simp] theorem State.writeS_errcmd (r : SReg) (v : Elem) : (s.writeS r v).errcmd = s.errcmd := rfl
@[simp] theorem State.writeS_busy (r : SReg) (v : Elem) : (s.writeS r v).busy = s.busy := rfl
@[simp] theorem State.writeS_inflight (r : SReg) (v : Elem) : (s.writeS r v).inflight = s.inflight := rfl
@[simp] theorem State.writeS_agenda (r : SReg) (v : Elem) : (s.writeS r v).agenda = s.agenda := rfl
@[simp] theorem State.writeS_replies (r : SReg) (v : Elem) : (s.writeS r v).replies = s.replies := rfl
@[simp] theorem State.writeS_draws (r : SReg) (v : Elem) : (s.writeS r v).draws = s.draws := rfl
@[simp] theorem State.writeS_unpolled (r : SReg) (v : Elem) : (s.writeS r v).unpolled = s.unpolled := rfl

/-! ## State.writeP -/

@[simp] theorem State.writeP_sregs (k : PReg) (t : Poly) : (s.writeP k t).sregs = s.sregs := rfl
@[simp] theorem State.writeP_pregs (k : PReg) (t : Poly) : (s.writeP k t).pregs = s.pregs.set k t := rfl
@[simp] theorem State.writeP_gpoly (k : PReg) (t : Poly) : (s.writeP k t).gpoly = s.gpoly := rfl
@[simp] theorem State.writeP_gvalid (k : PReg) (t : Poly) : (s.writeP k t).gvalid = s.gvalid := rfl
@[simp] theorem State.writeP_gdeg (k : PReg) (t : Poly) : (s.writeP k t).gdeg = s.gdeg := rfl
@[simp] theorem State.writeP_fOk (k : PReg) (t : Poly) : (s.writeP k t).fOk = s.fOk := rfl
@[simp] theorem State.writeP_errcount (k : PReg) (t : Poly) : (s.writeP k t).errcount = s.errcount := rfl
@[simp] theorem State.writeP_ready (k : PReg) (t : Poly) : (s.writeP k t).ready = s.ready := rfl
@[simp] theorem State.writeP_mAct (k : PReg) (t : Poly) : (s.writeP k t).mAct = s.mAct := rfl
@[simp] theorem State.writeP_polyAct (k : PReg) (t : Poly) : (s.writeP k t).polyAct = s.polyAct := rfl
@[simp] theorem State.writeP_baseAct (k : PReg) (t : Poly) : (s.writeP k t).baseAct = s.baseAct := rfl
@[simp] theorem State.writeP_expTable (k : PReg) (t : Poly) : (s.writeP k t).expTable = s.expTable := rfl
@[simp] theorem State.writeP_logTable (k : PReg) (t : Poly) : (s.writeP k t).logTable = s.logTable := rfl
@[simp] theorem State.writeP_cfgM (k : PReg) (t : Poly) : (s.writeP k t).cfgM = s.cfgM := rfl
@[simp] theorem State.writeP_cfgPoly (k : PReg) (t : Poly) : (s.writeP k t).cfgPoly = s.cfgPoly := rfl
@[simp] theorem State.writeP_cfgBase (k : PReg) (t : Poly) : (s.writeP k t).cfgBase = s.cfgBase := rfl
@[simp] theorem State.writeP_irqEn (k : PReg) (t : Poly) : (s.writeP k t).irqEn = s.irqEn := rfl
@[simp] theorem State.writeP_done (k : PReg) (t : Poly) : (s.writeP k t).done = s.done := rfl
@[simp] theorem State.writeP_err (k : PReg) (t : Poly) : (s.writeP k t).err = s.err := rfl
@[simp] theorem State.writeP_errovf (k : PReg) (t : Poly) : (s.writeP k t).errovf = s.errovf := rfl
@[simp] theorem State.writeP_accerr (k : PReg) (t : Poly) : (s.writeP k t).accerr = s.accerr := rfl
@[simp] theorem State.writeP_errcode (k : PReg) (t : Poly) : (s.writeP k t).errcode = s.errcode := rfl
@[simp] theorem State.writeP_errcmd (k : PReg) (t : Poly) : (s.writeP k t).errcmd = s.errcmd := rfl
@[simp] theorem State.writeP_busy (k : PReg) (t : Poly) : (s.writeP k t).busy = s.busy := rfl
@[simp] theorem State.writeP_inflight (k : PReg) (t : Poly) : (s.writeP k t).inflight = s.inflight := rfl
@[simp] theorem State.writeP_agenda (k : PReg) (t : Poly) : (s.writeP k t).agenda = s.agenda := rfl
@[simp] theorem State.writeP_replies (k : PReg) (t : Poly) : (s.writeP k t).replies = s.replies := rfl
@[simp] theorem State.writeP_draws (k : PReg) (t : Poly) : (s.writeP k t).draws = s.draws := rfl
@[simp] theorem State.writeP_unpolled (k : PReg) (t : Poly) : (s.writeP k t).unpolled = s.unpolled := rfl

/-! ## State.finish -/

@[simp] theorem State.finish_sregs : s.finish.sregs = s.sregs := rfl
@[simp] theorem State.finish_pregs : s.finish.pregs = s.pregs := rfl
@[simp] theorem State.finish_gpoly : s.finish.gpoly = s.gpoly := rfl
@[simp] theorem State.finish_gvalid : s.finish.gvalid = s.gvalid := rfl
@[simp] theorem State.finish_gdeg : s.finish.gdeg = s.gdeg := rfl
@[simp] theorem State.finish_fOk : s.finish.fOk = s.fOk := rfl
@[simp] theorem State.finish_errcount : s.finish.errcount = s.errcount := rfl
@[simp] theorem State.finish_ready : s.finish.ready = s.ready := rfl
@[simp] theorem State.finish_mAct : s.finish.mAct = s.mAct := rfl
@[simp] theorem State.finish_polyAct : s.finish.polyAct = s.polyAct := rfl
@[simp] theorem State.finish_baseAct : s.finish.baseAct = s.baseAct := rfl
@[simp] theorem State.finish_expTable : s.finish.expTable = s.expTable := rfl
@[simp] theorem State.finish_logTable : s.finish.logTable = s.logTable := rfl
@[simp] theorem State.finish_cfgM : s.finish.cfgM = s.cfgM := rfl
@[simp] theorem State.finish_cfgPoly : s.finish.cfgPoly = s.cfgPoly := rfl
@[simp] theorem State.finish_cfgBase : s.finish.cfgBase = s.cfgBase := rfl
@[simp] theorem State.finish_irqEn : s.finish.irqEn = s.irqEn := rfl
@[simp] theorem State.finish_done : s.finish.done = true := rfl
@[simp] theorem State.finish_err : s.finish.err = s.err := rfl
@[simp] theorem State.finish_errovf : s.finish.errovf = s.errovf := rfl
@[simp] theorem State.finish_accerr : s.finish.accerr = s.accerr := rfl
@[simp] theorem State.finish_errcode : s.finish.errcode = s.errcode := rfl
@[simp] theorem State.finish_errcmd : s.finish.errcmd = s.errcmd := rfl
@[simp] theorem State.finish_busy : s.finish.busy = false := rfl
@[simp] theorem State.finish_inflight : s.finish.inflight = s.inflight := rfl
@[simp] theorem State.finish_agenda : s.finish.agenda = s.agenda := rfl
@[simp] theorem State.finish_replies : s.finish.replies = s.replies := rfl
@[simp] theorem State.finish_draws : s.finish.draws = s.draws := rfl
@[simp] theorem State.finish_unpolled : s.finish.unpolled = s.unpolled := rfl

/-! ## State.recordError -/

@[simp] theorem State.recordError_sregs (e : ErrCode) (w : Word) : (s.recordError e w).sregs = s.sregs := rfl
@[simp] theorem State.recordError_pregs (e : ErrCode) (w : Word) : (s.recordError e w).pregs = s.pregs := rfl
@[simp] theorem State.recordError_gpoly (e : ErrCode) (w : Word) : (s.recordError e w).gpoly = s.gpoly := rfl
@[simp] theorem State.recordError_gvalid (e : ErrCode) (w : Word) : (s.recordError e w).gvalid = s.gvalid := rfl
@[simp] theorem State.recordError_gdeg (e : ErrCode) (w : Word) : (s.recordError e w).gdeg = s.gdeg := rfl
@[simp] theorem State.recordError_fOk (e : ErrCode) (w : Word) : (s.recordError e w).fOk = s.fOk := rfl
@[simp] theorem State.recordError_errcount (e : ErrCode) (w : Word) : (s.recordError e w).errcount = s.errcount := rfl
@[simp] theorem State.recordError_ready (e : ErrCode) (w : Word) : (s.recordError e w).ready = s.ready := rfl
@[simp] theorem State.recordError_mAct (e : ErrCode) (w : Word) : (s.recordError e w).mAct = s.mAct := rfl
@[simp] theorem State.recordError_polyAct (e : ErrCode) (w : Word) : (s.recordError e w).polyAct = s.polyAct := rfl
@[simp] theorem State.recordError_baseAct (e : ErrCode) (w : Word) : (s.recordError e w).baseAct = s.baseAct := rfl
@[simp] theorem State.recordError_expTable (e : ErrCode) (w : Word) : (s.recordError e w).expTable = s.expTable := rfl
@[simp] theorem State.recordError_logTable (e : ErrCode) (w : Word) : (s.recordError e w).logTable = s.logTable := rfl
@[simp] theorem State.recordError_cfgM (e : ErrCode) (w : Word) : (s.recordError e w).cfgM = s.cfgM := rfl
@[simp] theorem State.recordError_cfgPoly (e : ErrCode) (w : Word) : (s.recordError e w).cfgPoly = s.cfgPoly := rfl
@[simp] theorem State.recordError_cfgBase (e : ErrCode) (w : Word) : (s.recordError e w).cfgBase = s.cfgBase := rfl
@[simp] theorem State.recordError_irqEn (e : ErrCode) (w : Word) : (s.recordError e w).irqEn = s.irqEn := rfl
@[simp] theorem State.recordError_done (e : ErrCode) (w : Word) : (s.recordError e w).done = s.done := rfl
@[simp] theorem State.recordError_err (e : ErrCode) (w : Word) : (s.recordError e w).err = true := rfl
@[simp] theorem State.recordError_errovf (e : ErrCode) (w : Word) : (s.recordError e w).errovf = (s.errovf || s.err) := rfl
@[simp] theorem State.recordError_accerr (e : ErrCode) (w : Word) : (s.recordError e w).accerr = s.accerr := rfl
@[simp] theorem State.recordError_errcode (e : ErrCode) (w : Word) : (s.recordError e w).errcode = if s.err then s.errcode else e.code := rfl
@[simp] theorem State.recordError_errcmd (e : ErrCode) (w : Word) : (s.recordError e w).errcmd = if s.err then s.errcmd else w := rfl
@[simp] theorem State.recordError_busy (e : ErrCode) (w : Word) : (s.recordError e w).busy = s.busy := rfl
@[simp] theorem State.recordError_inflight (e : ErrCode) (w : Word) : (s.recordError e w).inflight = s.inflight := rfl
@[simp] theorem State.recordError_agenda (e : ErrCode) (w : Word) : (s.recordError e w).agenda = s.agenda := rfl
@[simp] theorem State.recordError_replies (e : ErrCode) (w : Word) : (s.recordError e w).replies = s.replies := rfl
@[simp] theorem State.recordError_draws (e : ErrCode) (w : Word) : (s.recordError e w).draws = s.draws := rfl
@[simp] theorem State.recordError_unpolled (e : ErrCode) (w : Word) : (s.recordError e w).unpolled = s.unpolled := rfl

/-! ## State.resetEngine -/

@[simp] theorem State.resetEngine_sregs : s.resetEngine.sregs = State.reset.sregs := rfl
@[simp] theorem State.resetEngine_pregs : s.resetEngine.pregs = State.reset.pregs := rfl
@[simp] theorem State.resetEngine_gpoly : s.resetEngine.gpoly = State.reset.gpoly := rfl
@[simp] theorem State.resetEngine_gvalid : s.resetEngine.gvalid = State.reset.gvalid := rfl
@[simp] theorem State.resetEngine_gdeg : s.resetEngine.gdeg = State.reset.gdeg := rfl
@[simp] theorem State.resetEngine_fOk : s.resetEngine.fOk = State.reset.fOk := rfl
@[simp] theorem State.resetEngine_errcount : s.resetEngine.errcount = State.reset.errcount := rfl
@[simp] theorem State.resetEngine_ready : s.resetEngine.ready = State.reset.ready := rfl
@[simp] theorem State.resetEngine_mAct : s.resetEngine.mAct = State.reset.mAct := rfl
@[simp] theorem State.resetEngine_polyAct : s.resetEngine.polyAct = State.reset.polyAct := rfl
@[simp] theorem State.resetEngine_baseAct : s.resetEngine.baseAct = State.reset.baseAct := rfl
@[simp] theorem State.resetEngine_expTable : s.resetEngine.expTable = State.reset.expTable := rfl
@[simp] theorem State.resetEngine_logTable : s.resetEngine.logTable = State.reset.logTable := rfl
@[simp] theorem State.resetEngine_cfgM : s.resetEngine.cfgM = State.reset.cfgM := rfl
@[simp] theorem State.resetEngine_cfgPoly : s.resetEngine.cfgPoly = State.reset.cfgPoly := rfl
@[simp] theorem State.resetEngine_cfgBase : s.resetEngine.cfgBase = State.reset.cfgBase := rfl
@[simp] theorem State.resetEngine_irqEn : s.resetEngine.irqEn = State.reset.irqEn := rfl
@[simp] theorem State.resetEngine_done : s.resetEngine.done = State.reset.done := rfl
@[simp] theorem State.resetEngine_err : s.resetEngine.err = State.reset.err := rfl
@[simp] theorem State.resetEngine_errovf : s.resetEngine.errovf = State.reset.errovf := rfl
@[simp] theorem State.resetEngine_accerr : s.resetEngine.accerr = State.reset.accerr := rfl
@[simp] theorem State.resetEngine_errcode : s.resetEngine.errcode = State.reset.errcode := rfl
@[simp] theorem State.resetEngine_errcmd : s.resetEngine.errcmd = State.reset.errcmd := rfl
@[simp] theorem State.resetEngine_busy : s.resetEngine.busy = State.reset.busy := rfl
@[simp] theorem State.resetEngine_inflight : s.resetEngine.inflight = State.reset.inflight := rfl
@[simp] theorem State.resetEngine_agenda : s.resetEngine.agenda = s.agenda := rfl
@[simp] theorem State.resetEngine_replies : s.resetEngine.replies = s.replies := rfl
@[simp] theorem State.resetEngine_draws : s.resetEngine.draws = s.draws := rfl
@[simp] theorem State.resetEngine_unpolled : s.resetEngine.unpolled = s.unpolled := rfl

/-! ## State.accessError -/

@[simp] theorem State.accessError_sregs : s.accessError.sregs = s.sregs := rfl
@[simp] theorem State.accessError_pregs : s.accessError.pregs = s.pregs := rfl
@[simp] theorem State.accessError_gpoly : s.accessError.gpoly = s.gpoly := rfl
@[simp] theorem State.accessError_gvalid : s.accessError.gvalid = s.gvalid := rfl
@[simp] theorem State.accessError_gdeg : s.accessError.gdeg = s.gdeg := rfl
@[simp] theorem State.accessError_fOk : s.accessError.fOk = s.fOk := rfl
@[simp] theorem State.accessError_errcount : s.accessError.errcount = s.errcount := rfl
@[simp] theorem State.accessError_ready : s.accessError.ready = s.ready := rfl
@[simp] theorem State.accessError_mAct : s.accessError.mAct = s.mAct := rfl
@[simp] theorem State.accessError_polyAct : s.accessError.polyAct = s.polyAct := rfl
@[simp] theorem State.accessError_baseAct : s.accessError.baseAct = s.baseAct := rfl
@[simp] theorem State.accessError_expTable : s.accessError.expTable = s.expTable := rfl
@[simp] theorem State.accessError_logTable : s.accessError.logTable = s.logTable := rfl
@[simp] theorem State.accessError_cfgM : s.accessError.cfgM = s.cfgM := rfl
@[simp] theorem State.accessError_cfgPoly : s.accessError.cfgPoly = s.cfgPoly := rfl
@[simp] theorem State.accessError_cfgBase : s.accessError.cfgBase = s.cfgBase := rfl
@[simp] theorem State.accessError_irqEn : s.accessError.irqEn = s.irqEn := rfl
@[simp] theorem State.accessError_done : s.accessError.done = s.done := rfl
@[simp] theorem State.accessError_err : s.accessError.err = s.err := rfl
@[simp] theorem State.accessError_errovf : s.accessError.errovf = s.errovf := rfl
@[simp] theorem State.accessError_accerr : s.accessError.accerr = true := rfl
@[simp] theorem State.accessError_errcode : s.accessError.errcode = s.errcode := rfl
@[simp] theorem State.accessError_errcmd : s.accessError.errcmd = s.errcmd := rfl
@[simp] theorem State.accessError_busy : s.accessError.busy = s.busy := rfl
@[simp] theorem State.accessError_inflight : s.accessError.inflight = s.inflight := rfl
@[simp] theorem State.accessError_agenda : s.accessError.agenda = s.agenda := rfl
@[simp] theorem State.accessError_replies : s.accessError.replies = s.replies := rfl
@[simp] theorem State.accessError_draws : s.accessError.draws = s.draws := rfl
@[simp] theorem State.accessError_unpolled : s.accessError.unpolled = s.unpolled := rfl

/-! ## State.reply -/

@[simp] theorem State.reply_sregs (v : Word) : (s.reply v).sregs = s.sregs := rfl
@[simp] theorem State.reply_pregs (v : Word) : (s.reply v).pregs = s.pregs := rfl
@[simp] theorem State.reply_gpoly (v : Word) : (s.reply v).gpoly = s.gpoly := rfl
@[simp] theorem State.reply_gvalid (v : Word) : (s.reply v).gvalid = s.gvalid := rfl
@[simp] theorem State.reply_gdeg (v : Word) : (s.reply v).gdeg = s.gdeg := rfl
@[simp] theorem State.reply_fOk (v : Word) : (s.reply v).fOk = s.fOk := rfl
@[simp] theorem State.reply_errcount (v : Word) : (s.reply v).errcount = s.errcount := rfl
@[simp] theorem State.reply_ready (v : Word) : (s.reply v).ready = s.ready := rfl
@[simp] theorem State.reply_mAct (v : Word) : (s.reply v).mAct = s.mAct := rfl
@[simp] theorem State.reply_polyAct (v : Word) : (s.reply v).polyAct = s.polyAct := rfl
@[simp] theorem State.reply_baseAct (v : Word) : (s.reply v).baseAct = s.baseAct := rfl
@[simp] theorem State.reply_expTable (v : Word) : (s.reply v).expTable = s.expTable := rfl
@[simp] theorem State.reply_logTable (v : Word) : (s.reply v).logTable = s.logTable := rfl
@[simp] theorem State.reply_cfgM (v : Word) : (s.reply v).cfgM = s.cfgM := rfl
@[simp] theorem State.reply_cfgPoly (v : Word) : (s.reply v).cfgPoly = s.cfgPoly := rfl
@[simp] theorem State.reply_cfgBase (v : Word) : (s.reply v).cfgBase = s.cfgBase := rfl
@[simp] theorem State.reply_irqEn (v : Word) : (s.reply v).irqEn = s.irqEn := rfl
@[simp] theorem State.reply_done (v : Word) : (s.reply v).done = s.done := rfl
@[simp] theorem State.reply_err (v : Word) : (s.reply v).err = s.err := rfl
@[simp] theorem State.reply_errovf (v : Word) : (s.reply v).errovf = s.errovf := rfl
@[simp] theorem State.reply_accerr (v : Word) : (s.reply v).accerr = s.accerr := rfl
@[simp] theorem State.reply_errcode (v : Word) : (s.reply v).errcode = s.errcode := rfl
@[simp] theorem State.reply_errcmd (v : Word) : (s.reply v).errcmd = s.errcmd := rfl
@[simp] theorem State.reply_busy (v : Word) : (s.reply v).busy = s.busy := rfl
@[simp] theorem State.reply_inflight (v : Word) : (s.reply v).inflight = s.inflight := rfl
@[simp] theorem State.reply_agenda (v : Word) : (s.reply v).agenda = s.agenda := rfl
@[simp] theorem State.reply_replies (v : Word) : (s.reply v).replies = v :: s.replies := rfl
@[simp] theorem State.reply_draws (v : Word) : (s.reply v).draws = s.draws := rfl
@[simp] theorem State.reply_unpolled (v : Word) : (s.reply v).unpolled = s.unpolled := rfl

/-! ## State.replyDraw -/

@[simp] theorem State.replyDraw_sregs : s.replyDraw.sregs = s.sregs := rfl
@[simp] theorem State.replyDraw_pregs : s.replyDraw.pregs = s.pregs := rfl
@[simp] theorem State.replyDraw_gpoly : s.replyDraw.gpoly = s.gpoly := rfl
@[simp] theorem State.replyDraw_gvalid : s.replyDraw.gvalid = s.gvalid := rfl
@[simp] theorem State.replyDraw_gdeg : s.replyDraw.gdeg = s.gdeg := rfl
@[simp] theorem State.replyDraw_fOk : s.replyDraw.fOk = s.fOk := rfl
@[simp] theorem State.replyDraw_errcount : s.replyDraw.errcount = s.errcount := rfl
@[simp] theorem State.replyDraw_ready : s.replyDraw.ready = s.ready := rfl
@[simp] theorem State.replyDraw_mAct : s.replyDraw.mAct = s.mAct := rfl
@[simp] theorem State.replyDraw_polyAct : s.replyDraw.polyAct = s.polyAct := rfl
@[simp] theorem State.replyDraw_baseAct : s.replyDraw.baseAct = s.baseAct := rfl
@[simp] theorem State.replyDraw_expTable : s.replyDraw.expTable = s.expTable := rfl
@[simp] theorem State.replyDraw_logTable : s.replyDraw.logTable = s.logTable := rfl
@[simp] theorem State.replyDraw_cfgM : s.replyDraw.cfgM = s.cfgM := rfl
@[simp] theorem State.replyDraw_cfgPoly : s.replyDraw.cfgPoly = s.cfgPoly := rfl
@[simp] theorem State.replyDraw_cfgBase : s.replyDraw.cfgBase = s.cfgBase := rfl
@[simp] theorem State.replyDraw_irqEn : s.replyDraw.irqEn = s.irqEn := rfl
@[simp] theorem State.replyDraw_done : s.replyDraw.done = s.done := rfl
@[simp] theorem State.replyDraw_err : s.replyDraw.err = s.err := rfl
@[simp] theorem State.replyDraw_errovf : s.replyDraw.errovf = s.errovf := rfl
@[simp] theorem State.replyDraw_accerr : s.replyDraw.accerr = s.accerr := rfl
@[simp] theorem State.replyDraw_errcode : s.replyDraw.errcode = s.errcode := rfl
@[simp] theorem State.replyDraw_errcmd : s.replyDraw.errcmd = s.errcmd := rfl
@[simp] theorem State.replyDraw_busy : s.replyDraw.busy = s.busy := rfl
@[simp] theorem State.replyDraw_inflight : s.replyDraw.inflight = s.inflight := rfl
@[simp] theorem State.replyDraw_agenda : s.replyDraw.agenda = s.agenda := rfl
@[simp] theorem State.replyDraw_replies : s.replyDraw.replies = Config.busyRead s.draws :: s.replies := rfl
@[simp] theorem State.replyDraw_draws : s.replyDraw.draws = s.draws + 1 := rfl
@[simp] theorem State.replyDraw_unpolled : s.replyDraw.unpolled = s.unpolled := rfl

/-! ## State.readStatus -/

@[simp] theorem State.readStatus_sregs : s.readStatus.sregs = s.sregs := rfl
@[simp] theorem State.readStatus_pregs : s.readStatus.pregs = s.pregs := rfl
@[simp] theorem State.readStatus_gpoly : s.readStatus.gpoly = s.gpoly := rfl
@[simp] theorem State.readStatus_gvalid : s.readStatus.gvalid = s.gvalid := rfl
@[simp] theorem State.readStatus_gdeg : s.readStatus.gdeg = s.gdeg := rfl
@[simp] theorem State.readStatus_fOk : s.readStatus.fOk = s.fOk := rfl
@[simp] theorem State.readStatus_errcount : s.readStatus.errcount = s.errcount := rfl
@[simp] theorem State.readStatus_ready : s.readStatus.ready = s.ready := rfl
@[simp] theorem State.readStatus_mAct : s.readStatus.mAct = s.mAct := rfl
@[simp] theorem State.readStatus_polyAct : s.readStatus.polyAct = s.polyAct := rfl
@[simp] theorem State.readStatus_baseAct : s.readStatus.baseAct = s.baseAct := rfl
@[simp] theorem State.readStatus_expTable : s.readStatus.expTable = s.expTable := rfl
@[simp] theorem State.readStatus_logTable : s.readStatus.logTable = s.logTable := rfl
@[simp] theorem State.readStatus_cfgM : s.readStatus.cfgM = s.cfgM := rfl
@[simp] theorem State.readStatus_cfgPoly : s.readStatus.cfgPoly = s.cfgPoly := rfl
@[simp] theorem State.readStatus_cfgBase : s.readStatus.cfgBase = s.cfgBase := rfl
@[simp] theorem State.readStatus_irqEn : s.readStatus.irqEn = s.irqEn := rfl
@[simp] theorem State.readStatus_done : s.readStatus.done = s.done := rfl
@[simp] theorem State.readStatus_err : s.readStatus.err = s.err := rfl
@[simp] theorem State.readStatus_errovf : s.readStatus.errovf = s.errovf := rfl
@[simp] theorem State.readStatus_accerr : s.readStatus.accerr = s.accerr := rfl
@[simp] theorem State.readStatus_errcode : s.readStatus.errcode = s.errcode := rfl
@[simp] theorem State.readStatus_errcmd : s.readStatus.errcmd = s.errcmd := rfl
@[simp] theorem State.readStatus_busy : s.readStatus.busy = s.busy := rfl
@[simp] theorem State.readStatus_inflight : s.readStatus.inflight = s.inflight := rfl
@[simp] theorem State.readStatus_agenda : s.readStatus.agenda = s.agenda := rfl
@[simp] theorem State.readStatus_replies : s.readStatus.replies = s.statusWord :: s.replies := rfl
@[simp] theorem State.readStatus_draws : s.readStatus.draws = s.draws := rfl
@[simp] theorem State.readStatus_unpolled : s.readStatus.unpolled = (s.unpolled && s.busy) := rfl

/-! ## State.issue -/

@[simp] theorem State.issue_sregs (w : Word) : (s.issue w).sregs = s.sregs := rfl
@[simp] theorem State.issue_pregs (w : Word) : (s.issue w).pregs = s.pregs := rfl
@[simp] theorem State.issue_gpoly (w : Word) : (s.issue w).gpoly = s.gpoly := rfl
@[simp] theorem State.issue_gvalid (w : Word) : (s.issue w).gvalid = s.gvalid := rfl
@[simp] theorem State.issue_gdeg (w : Word) : (s.issue w).gdeg = s.gdeg := rfl
@[simp] theorem State.issue_fOk (w : Word) : (s.issue w).fOk = s.fOk := rfl
@[simp] theorem State.issue_errcount (w : Word) : (s.issue w).errcount = s.errcount := rfl
@[simp] theorem State.issue_ready (w : Word) : (s.issue w).ready = s.ready := rfl
@[simp] theorem State.issue_mAct (w : Word) : (s.issue w).mAct = s.mAct := rfl
@[simp] theorem State.issue_polyAct (w : Word) : (s.issue w).polyAct = s.polyAct := rfl
@[simp] theorem State.issue_baseAct (w : Word) : (s.issue w).baseAct = s.baseAct := rfl
@[simp] theorem State.issue_expTable (w : Word) : (s.issue w).expTable = s.expTable := rfl
@[simp] theorem State.issue_logTable (w : Word) : (s.issue w).logTable = s.logTable := rfl
@[simp] theorem State.issue_cfgM (w : Word) : (s.issue w).cfgM = s.cfgM := rfl
@[simp] theorem State.issue_cfgPoly (w : Word) : (s.issue w).cfgPoly = s.cfgPoly := rfl
@[simp] theorem State.issue_cfgBase (w : Word) : (s.issue w).cfgBase = s.cfgBase := rfl
@[simp] theorem State.issue_irqEn (w : Word) : (s.issue w).irqEn = s.irqEn := rfl
@[simp] theorem State.issue_done (w : Word) : (s.issue w).done = s.done := rfl
@[simp] theorem State.issue_err (w : Word) : (s.issue w).err = s.err := rfl
@[simp] theorem State.issue_errovf (w : Word) : (s.issue w).errovf = s.errovf := rfl
@[simp] theorem State.issue_accerr (w : Word) : (s.issue w).accerr = s.accerr := rfl
@[simp] theorem State.issue_errcode (w : Word) : (s.issue w).errcode = s.errcode := rfl
@[simp] theorem State.issue_errcmd (w : Word) : (s.issue w).errcmd = s.errcmd := rfl
@[simp] theorem State.issue_busy (w : Word) : (s.issue w).busy = true := rfl
@[simp] theorem State.issue_inflight (w : Word) : (s.issue w).inflight = w := rfl
@[simp] theorem State.issue_agenda (w : Word) : (s.issue w).agenda = s.agenda := rfl
@[simp] theorem State.issue_replies (w : Word) : (s.issue w).replies = s.replies := rfl
@[simp] theorem State.issue_draws (w : Word) : (s.issue w).draws = s.draws := rfl
@[simp] theorem State.issue_unpolled (w : Word) : (s.issue w).unpolled = true := rfl

/-! ## State.writeStatus -/

@[simp] theorem State.writeStatus_sregs (v : Word) : (s.writeStatus v).sregs = s.sregs := rfl
@[simp] theorem State.writeStatus_pregs (v : Word) : (s.writeStatus v).pregs = s.pregs := rfl
@[simp] theorem State.writeStatus_gpoly (v : Word) : (s.writeStatus v).gpoly = s.gpoly := rfl
@[simp] theorem State.writeStatus_gvalid (v : Word) : (s.writeStatus v).gvalid = s.gvalid := rfl
@[simp] theorem State.writeStatus_gdeg (v : Word) : (s.writeStatus v).gdeg = s.gdeg := rfl
@[simp] theorem State.writeStatus_fOk (v : Word) : (s.writeStatus v).fOk = s.fOk := rfl
@[simp] theorem State.writeStatus_errcount (v : Word) : (s.writeStatus v).errcount = s.errcount := rfl
@[simp] theorem State.writeStatus_ready (v : Word) : (s.writeStatus v).ready = s.ready := rfl
@[simp] theorem State.writeStatus_mAct (v : Word) : (s.writeStatus v).mAct = s.mAct := rfl
@[simp] theorem State.writeStatus_polyAct (v : Word) : (s.writeStatus v).polyAct = s.polyAct := rfl
@[simp] theorem State.writeStatus_baseAct (v : Word) : (s.writeStatus v).baseAct = s.baseAct := rfl
@[simp] theorem State.writeStatus_expTable (v : Word) : (s.writeStatus v).expTable = s.expTable := rfl
@[simp] theorem State.writeStatus_logTable (v : Word) : (s.writeStatus v).logTable = s.logTable := rfl
@[simp] theorem State.writeStatus_cfgM (v : Word) : (s.writeStatus v).cfgM = s.cfgM := rfl
@[simp] theorem State.writeStatus_cfgPoly (v : Word) : (s.writeStatus v).cfgPoly = s.cfgPoly := rfl
@[simp] theorem State.writeStatus_cfgBase (v : Word) : (s.writeStatus v).cfgBase = s.cfgBase := rfl
@[simp] theorem State.writeStatus_irqEn (v : Word) : (s.writeStatus v).irqEn = s.irqEn := rfl
@[simp] theorem State.writeStatus_done (v : Word) : (s.writeStatus v).done = (s.done && !v.getLsbD 2) := rfl
@[simp] theorem State.writeStatus_err (v : Word) : (s.writeStatus v).err = (s.err && !v.getLsbD 3) := rfl
@[simp] theorem State.writeStatus_errovf (v : Word) : (s.writeStatus v).errovf = (s.errovf && !v.getLsbD 7) := rfl
@[simp] theorem State.writeStatus_accerr (v : Word) : (s.writeStatus v).accerr = (s.accerr && !v.getLsbD 5) := rfl
@[simp] theorem State.writeStatus_errcode (v : Word) : (s.writeStatus v).errcode = if v.getLsbD 3 then 0 else s.errcode := rfl
@[simp] theorem State.writeStatus_errcmd (v : Word) : (s.writeStatus v).errcmd = if v.getLsbD 3 then 0 else s.errcmd := rfl
@[simp] theorem State.writeStatus_busy (v : Word) : (s.writeStatus v).busy = s.busy := rfl
@[simp] theorem State.writeStatus_inflight (v : Word) : (s.writeStatus v).inflight = s.inflight := rfl
@[simp] theorem State.writeStatus_agenda (v : Word) : (s.writeStatus v).agenda = s.agenda := rfl
@[simp] theorem State.writeStatus_replies (v : Word) : (s.writeStatus v).replies = s.replies := rfl
@[simp] theorem State.writeStatus_draws (v : Word) : (s.writeStatus v).draws = s.draws := rfl
@[simp] theorem State.writeStatus_unpolled (v : Word) : (s.writeStatus v).unpolled = s.unpolled := rfl

/-! ## latchConfig -/

@[simp] theorem latchConfig_sregs : (latchConfig s).sregs = s.sregs := rfl
@[simp] theorem latchConfig_pregs : (latchConfig s).pregs = s.pregs := rfl
@[simp] theorem latchConfig_gpoly : (latchConfig s).gpoly = [] := rfl
@[simp] theorem latchConfig_gvalid : (latchConfig s).gvalid = false := rfl
@[simp] theorem latchConfig_gdeg : (latchConfig s).gdeg = 0 := rfl
@[simp] theorem latchConfig_fOk : (latchConfig s).fOk = s.fOk := rfl
@[simp] theorem latchConfig_errcount : (latchConfig s).errcount = s.errcount := rfl
@[simp] theorem latchConfig_ready : (latchConfig s).ready = true := rfl
@[simp] theorem latchConfig_mAct : (latchConfig s).mAct = s.cfgM := rfl
@[simp] theorem latchConfig_polyAct : (latchConfig s).polyAct = s.cfgPoly := rfl
@[simp] theorem latchConfig_baseAct : (latchConfig s).baseAct = s.cfgBase.setWidth 1 := rfl
@[simp] theorem latchConfig_expTable : (latchConfig s).expTable = buildExp s.cfgM.toNat s.cfgPoly.toNat := rfl
@[simp] theorem latchConfig_logTable : (latchConfig s).logTable = buildLog s.cfgM.toNat (buildExp s.cfgM.toNat s.cfgPoly.toNat) := rfl
@[simp] theorem latchConfig_cfgM : (latchConfig s).cfgM = s.cfgM := rfl
@[simp] theorem latchConfig_cfgPoly : (latchConfig s).cfgPoly = s.cfgPoly := rfl
@[simp] theorem latchConfig_cfgBase : (latchConfig s).cfgBase = s.cfgBase := rfl
@[simp] theorem latchConfig_irqEn : (latchConfig s).irqEn = s.irqEn := rfl
@[simp] theorem latchConfig_done : (latchConfig s).done = s.done := rfl
@[simp] theorem latchConfig_err : (latchConfig s).err = s.err := rfl
@[simp] theorem latchConfig_errovf : (latchConfig s).errovf = s.errovf := rfl
@[simp] theorem latchConfig_accerr : (latchConfig s).accerr = s.accerr := rfl
@[simp] theorem latchConfig_errcode : (latchConfig s).errcode = s.errcode := rfl
@[simp] theorem latchConfig_errcmd : (latchConfig s).errcmd = s.errcmd := rfl
@[simp] theorem latchConfig_busy : (latchConfig s).busy = s.busy := rfl
@[simp] theorem latchConfig_inflight : (latchConfig s).inflight = s.inflight := rfl
@[simp] theorem latchConfig_agenda : (latchConfig s).agenda = s.agenda := rfl
@[simp] theorem latchConfig_replies : (latchConfig s).replies = s.replies := rfl
@[simp] theorem latchConfig_draws : (latchConfig s).draws = s.draws := rfl
@[simp] theorem latchConfig_unpolled : (latchConfig s).unpolled = s.unpolled := rfl

end Sys2Proof.Machine
end

