-- ==== Sys2Proof/Laws/Regs.lean ====
section
/-! SUPPORT. The register files through their accessors: read after write, and the operations that leave them alone. -/

namespace Sys2Proof.Machine

/-! ## Scalar registers (R10, R21) -/

@[simp] theorem readS_zero (s : State) : s.readS 0 = 0 := by simp [State.readS]

theorem readS_writeS (s : State) (r q : SReg) (v : Elem) :
    (s.writeS r v).readS q = if q = 0 then 0 else if q = r then v else s.readS q := by
  unfold State.readS
  split
  · rfl
  · rename_i hq
    by_cases hr : r = 0
    · subst hr
      simp [hq]
    · by_cases h : q = r
      · subst h
        simp [hr]
      · have : r.val ≠ q.val := fun e => h (Fin.ext e.symm)
        simp [hr, h, this]

theorem readS_writeS_ne (s : State) {r q : SReg} (v : Elem) (h : q ≠ r) : (s.writeS r v).readS q = s.readS q := by
  rw [readS_writeS, if_neg h]
  split
  · rename_i h0; subst h0; simp
  · rfl

theorem readS_writeS_self (s : State) {r : SReg} (v : Elem) (h : r ≠ 0) : (s.writeS r v).readS r = v := by
  rw [readS_writeS, if_neg h, if_pos rfl]

/-- A write to S0 changes nothing at all (R21). -/
@[simp] theorem writeS_zero (s : State) (v : Elem) : s.writeS 0 v = s := rfl

/-- The scalar file is read through sregs alone. -/
theorem readS_congr {s t : State} (h : s.sregs = t.sregs) (r : SReg) : s.readS r = t.readS r := by
  unfold State.readS; rw [h]

/-! ## Polynomial registers (R10, R25) -/

theorem readP_writeP (s : State) (k j : PReg) (t : Poly) :
    (s.writeP k t).readP j = if j = k then t else s.readP j := by
  unfold State.readP
  by_cases h : j = k
  · subst h; simp
  · have : k.val ≠ j.val := fun e => h (Fin.ext e.symm)
    simp [h, this]

@[simp] theorem readP_writeP_self (s : State) (k : PReg) (t : Poly) : (s.writeP k t).readP k = t := by
  simp [readP_writeP]

theorem readP_writeP_ne (s : State) {k j : PReg} (t : Poly) (h : j ≠ k) : (s.writeP k t).readP j = s.readP j := by
  simp [readP_writeP, h]

/-- The polynomial file is read through pregs alone. -/
theorem readP_congr {s t : State} (h : s.pregs = t.pregs) (k : PReg) : s.readP k = t.readP k := by
  unfold State.readP; rw [h]

/-! ## What the updates leave to the accessors -/

@[simp] theorem readS_writeP (s : State) (k : PReg) (t : Poly) (r : SReg) : (s.writeP k t).readS r = s.readS r := rfl
@[simp] theorem readP_writeS (s : State) (r : SReg) (v : Elem) (k : PReg) : (s.writeS r v).readP k = s.readP k := rfl
@[simp] theorem readS_finish (s : State) (r : SReg) : s.finish.readS r = s.readS r := rfl
@[simp] theorem readP_finish (s : State) (k : PReg) : s.finish.readP k = s.readP k := rfl
@[simp] theorem readS_recordError (s : State) (e : ErrCode) (w : Word) (r : SReg) :
    (s.recordError e w).readS r = s.readS r := rfl
@[simp] theorem readP_recordError (s : State) (e : ErrCode) (w : Word) (k : PReg) :
    (s.recordError e w).readP k = s.readP k := rfl
@[simp] theorem readS_accessError (s : State) (r : SReg) : s.accessError.readS r = s.readS r := rfl
@[simp] theorem readP_accessError (s : State) (k : PReg) : s.accessError.readP k = s.readP k := rfl
@[simp] theorem readS_writeStatus (s : State) (v : Word) (r : SReg) : (s.writeStatus v).readS r = s.readS r := rfl
@[simp] theorem readP_writeStatus (s : State) (v : Word) (k : PReg) : (s.writeStatus v).readP k = s.readP k := rfl

@[simp] theorem gf_writeS (s : State) (r : SReg) (v : Elem) : (s.writeS r v).gf = s.gf := rfl
@[simp] theorem gf_writeP (s : State) (k : PReg) (t : Poly) : (s.writeP k t).gf = s.gf := rfl
@[simp] theorem gf_finish (s : State) : s.finish.gf = s.gf := rfl
@[simp] theorem gf_recordError (s : State) (e : ErrCode) (w : Word) : (s.recordError e w).gf = s.gf := rfl
@[simp] theorem gf_m (s : State) : s.gf.m = s.mAct.toNat := rfl
@[simp] theorem gf_q (s : State) : s.gf.q = s.q := rfl
@[simp] theorem gf_latchConfig (s : State) : (latchConfig s).gf = builtGf s.cfgM.toNat s.cfgPoly.toNat := rfl

/-! ## Operand checks in the claims' terms -/

theorem isElem_iff (F : Gf) (a : Elem) : F.isElem a = true ↔ a.toNat < 2 ^ F.m := by simp [Gf.isElem]

theorem allElems_iff (F : Gf) (l : Poly) : allElems F l = true ↔ ∀ a ∈ l, a.toNat < 2 ^ F.m := by
  simp [allElems, Gf.isElem]

/-- The range check passes exactly when every listed source holds field elements (R140, R200, R230). -/
theorem elemsOk_iff (s : State) (rs : List SReg) (ps : List PReg) :
    elemsOk s rs ps = true ↔ (∀ r ∈ rs, s.elemS r) ∧ ∀ k ∈ ps, s.elemsP k := by
  simp [elemsOk, scalarsOk, polysOk, isElem_iff, allElems_iff, State.elemS, State.elemsP]

end Sys2Proof.Machine
end

