-- ==== Sys2Proof/Laws/Access.lean ====
section
/-! SUPPORT. What one host access can do to the state, said once (20_memory.md rule R69, 70_reset_and_hazards.md rule R326). -/

namespace Sys2Proof.Machine

/-- A read that draws nothing: an access error, a STATUS read, or the register's value (R67, R69). -/
theorem readIdle_cases (s : State) (t : Target) :
    (t = .reserved ∧ s.readIdle t = s.accessError.reply 0) ∨ (t = .status ∧ s.readIdle t = s.readStatus) ∨
      (t ≠ .reserved ∧ t ≠ .status ∧ s.readIdle t = s.reply (s.busValue t)) := by
  cases t <;> simp [State.readIdle]

/-- With BUSY = 1 a read answers as when idle or draws an unspecified word (R326). -/
theorem readBusy_cases (s : State) (t : Target) : s.readBusy t = s.readIdle t ∨ s.readBusy t = s.replyDraw := by
  cases t <;> simp [State.readBusy]

/-- A read changes nothing but ACCERR and the model's own replies, draw count and poll mark (R69). -/
theorem access_read_frame (s : State) (size : AccessSize) (addr : Addr) :
    ∃ r d a u, s.access (.read size addr) = { s with replies := r, draws := d, accerr := a, unpolled := u } := by
  have idle : ∀ t, ∃ r d a u, s.readIdle t = { s with replies := r, draws := d, accerr := a, unpolled := u } := by
    intro t
    rcases readIdle_cases s t with ⟨-, h⟩ | ⟨-, h⟩ | ⟨-, -, h⟩ <;> rw [h]
    · exact ⟨_, s.draws, _, s.unpolled, rfl⟩
    · exact ⟨_, s.draws, s.accerr, _, rfl⟩
    · exact ⟨_, s.draws, s.accerr, s.unpolled, rfl⟩
  unfold State.access
  simp only
  split_ifs
  · rcases readBusy_cases s (targetOf addr) with h | h <;> rw [h]
    · exact idle _
    · exact ⟨_, _, s.accerr, s.unpolled, rfl⟩
  · exact idle _
  · exact ⟨_, s.draws, _, s.unpolled, rfl⟩

/-- A write with BUSY = 1 is a CTRL write, a STATUS write, or refused with ACCERR (R325, R326). -/
theorem writeBusy_cases (s : State) (t : Target) (v : Word) :
    (t = .ctrl ∧ s.writeBusy t v = s.writeCtrl v) ∨ (t = .status ∧ s.writeBusy t v = s.writeStatus v) ∨
      (t ≠ .ctrl ∧ t ≠ .status ∧ s.writeBusy t v = s.accessError) := by
  cases t <;> simp [State.writeBusy]

/-- A CTRL write resets the engine or sets IRQ_EN (R32). -/
theorem writeCtrl_cases (s : State) (v : Word) :
    (v.getLsbD 1 = true ∧ s.writeCtrl v = s.resetEngine) ∨
      (v.getLsbD 1 = false ∧ s.writeCtrl v = { s with irqEn := v.getLsbD 0 }) := by
  unfold State.writeCtrl
  cases h : v.getLsbD 1
  · exact .inr ⟨rfl, by simp⟩
  · exact .inl ⟨rfl, by simp⟩

theorem writePlen_cases (s : State) (k : PReg) (v : Word) :
    ((v.setWidth 17).toNat ≤ Config.pcap ∧ s.writePlen k v = s.writeP k (setLen (v.setWidth 17).toNat (s.readP k))) ∨
      (Config.pcap < (v.setWidth 17).toNat ∧ s.writePlen k v = s.accessError) := by
  unfold State.writePlen
  by_cases h : (v.setWidth 17).toNat ≤ Config.pcap
  · exact .inl ⟨h, by simp only [if_pos h]⟩
  · exact .inr ⟨by omega, by simp only [if_neg h]⟩

theorem writePWin_cases (s : State) (k : PReg) (i : Nat) (v : Word) :
    (i < (s.readP k).length ∧ s.writePWin k i v = s.writeP k ((s.readP k).set i (v.setWidth 16))) ∨
      ((s.readP k).length ≤ i ∧ s.writePWin k i v = s.accessError) := by
  unfold State.writePWin
  by_cases h : i < (s.readP k).length
  · exact .inl ⟨h, by simp only [if_pos h]⟩
  · exact .inr ⟨by omega, by simp only [if_neg h]⟩

/-- Everything a write can do: refused with ACCERR (busy, illegal, or at a read-only or reserved place), a CTRL or STATUS
write, or, when idle, a write of the register its address selects. -/
theorem access_write_cases (s : State) (size : AccessSize) (addr : Addr) (v : Word) :
    s.access (.write size addr v) = s.accessError ∨
      (legalAccess size addr = true ∧
        ((targetOf addr = .ctrl ∧ s.access (.write size addr v) = s.writeCtrl v) ∨
         (targetOf addr = .status ∧ s.access (.write size addr v) = s.writeStatus v) ∨
         (s.busy = false ∧ s.access (.write size addr v) = s.writeIdle (targetOf addr) v))) := by
  unfold State.access
  simp only
  by_cases hl : legalAccess size addr = true
  · by_cases hb : s.busy = true
    · rw [if_pos hl, if_pos hb]
      rcases writeBusy_cases s (targetOf addr) v with ⟨ht, h⟩ | ⟨ht, h⟩ | ⟨-, -, h⟩
      · exact .inr ⟨hl, .inl ⟨ht, h⟩⟩
      · exact .inr ⟨hl, .inr (.inl ⟨ht, h⟩)⟩
      · exact .inl h
    · rw [if_pos hl, if_neg hb]
      exact .inr ⟨hl, .inr (.inr ⟨by simpa using hb, rfl⟩)⟩
  · rw [if_neg hl]; exact .inl rfl

end Sys2Proof.Machine
end

