-- ==== Sys2Proof/Laws/Exec.lean ====
section
/-! SUPPORT. What a command, a move and a step can do, said once: exec is complete over a rule, and a rule that succeeds
tells its conditions. Later proofs cite these and unfold no meaning. -/

namespace Sys2Proof.Machine

/-! ## Completion (R280 to R282) -/

@[simp] theorem complete_ok (s t : State) : complete s (.ok t) = t.finish := rfl
@[simp] theorem complete_error (s : State) (e : ErrCode) :
    complete s (.error e) = (s.recordError e s.inflight).finish := rfl

theorem complete_cases (s : State) (r : Except ErrCode State) :
    (∃ t, r = .ok t ∧ complete s r = t.finish) ∨
      ∃ e, r = .error e ∧ complete s r = (s.recordError e s.inflight).finish := by
  cases r with
  | ok t => exact .inl ⟨t, rfl, rfl⟩
  | error e => exact .inr ⟨e, rfl, rfl⟩

/-! ## The rule of each command -/

/-- The command's rule: the state its pseudocode leaves, or the error it raises (R13, R15). -/
def rule (i : Instr) (s : State) : Except ErrCode State :=
  match i with
  | .nop => .ok s
  | .build => ruleBuild s
  | .li rd imm => .ok (s.writeS rd imm)
  | .gadd rd a b => ruleGadd rd a b s
  | .gmul rd a b => ruleGmul rd a b s
  | .gdiv rd a b => ruleGdiv rd a b s
  | .ginv rd a => ruleGinv rd a s
  | .gpow rd a b => ruleGpow rd a b s
  | .gexp rd a => ruleGexp rd a s
  | .glog rd a => ruleGlog rd a s
  | .pget rd pa b => rulePget rd pa b s
  | .pput pd a b => rulePput pd a b s
  | .plen rd pa => .ok (s.writeS rd (BitVec.ofNat 16 (s.lenP pa)))
  | .psetlen pd a => rulePsetlen pd a s
  | .pmov pd pa => .ok (s.writeP pd (s.readP pa))
  | .prev pd pa => .ok (s.writeP pd (s.readP pa).reverse)
  | .pstrip pd pa => .ok (s.writeP pd (strip (s.readP pa)))
  | .peval rd pa b => rulePeval rd pa b s
  | .pevala rd pa b => rulePevala rd pa b s
  | .pevalc rd pa b c => rulePevalc rd pa b c s
  | .pmul pd pa pb => rulePmul pd pa pb s
  | .pdiv pd pa pb pc => rulePdiv pd pa pb pc s
  | .paddsb pd pa pb c => rulePaddsb pd pa pb c s
  | .rsgen a => ruleRsgen a s
  | .rsenc pd pa => ruleRsenc pd pa s
  | .rssyn pd pa pb => ruleRssyn pd pa pb s
  | .rsbm pd pa => ruleRsbm pd pa s
  | .rschien pd pa b => ruleRschien pd pa b s
  | .rsforney pd pa pb pc => ruleRsforney pd pa pb pc s
  | .rsdec pd pa => ruleRsdec pd pa s

/-- exec is the completion of the command's rule, and never a fault or a refusal (R280). -/
theorem exec_eq (i : Instr) (s : State) : exec i s = .next (complete s (rule i s)) := by
  cases i <;> rfl

/-- An error or a success of exec, told apart by the rule. -/
theorem exec_of_ok {i : Instr} {s t : State} (h : rule i s = .ok t) : exec i s = .next t.finish := by
  rw [exec_eq, h, complete_ok]

theorem exec_of_error {i : Instr} {s : State} {e : ErrCode} (h : rule i s = .error e) :
    exec i s = .next (s.recordError e s.inflight).finish := by
  rw [exec_eq, h, complete_error]

/-! ## When a rule succeeds, and with what state -/

section
variable {s t : State}

theorem ruleBuild_ok : ruleBuild s = .ok t ↔
    validConfig s.cfgM.toNat s.cfgPoly.toNat s.cfgBase.toNat = true ∧ latchConfig s = t := by
  unfold ruleBuild; split_ifs <;> simp_all

theorem ruleGadd_ok {rd a b : SReg} : ruleGadd rd a b s = .ok t ↔
    s.ready = true ∧ elemsOk s [a, b] [] = true ∧ s.writeS rd (gadd (s.readS a) (s.readS b)) = t := by
  unfold ruleGadd; split_ifs <;> simp_all

theorem ruleGmul_ok {rd a b : SReg} : ruleGmul rd a b s = .ok t ↔
    s.ready = true ∧ elemsOk s [a, b] [] = true ∧ s.writeS rd (gmul s.gf (s.readS a) (s.readS b)) = t := by
  unfold ruleGmul; split_ifs <;> simp_all

theorem ruleGdiv_ok {rd a b : SReg} : ruleGdiv rd a b s = .ok t ↔
    s.ready = true ∧ elemsOk s [a, b] [] = true ∧ s.readS b ≠ 0 ∧
      s.writeS rd (gdivNz s.gf (s.readS a) (s.readS b)) = t := by
  unfold ruleGdiv; split_ifs <;> simp_all

theorem ruleGinv_ok {rd a : SReg} : ruleGinv rd a s = .ok t ↔
    s.ready = true ∧ elemsOk s [a] [] = true ∧ s.readS a ≠ 0 ∧ s.writeS rd (ginvNz s.gf (s.readS a)) = t := by
  unfold ruleGinv; split_ifs <;> simp_all

theorem ruleGpow_ok {rd a b : SReg} : ruleGpow rd a b s = .ok t ↔
    s.ready = true ∧ elemsOk s [a] [] = true ∧ s.writeS rd (gpow s.gf (s.readS a) (s.intS b)) = t := by
  unfold ruleGpow; split_ifs <;> simp_all

theorem ruleGexp_ok {rd a : SReg} : ruleGexp rd a s = .ok t ↔
    s.ready = true ∧ s.writeS rd (alpha s.gf (s.intS a)) = t := by
  unfold ruleGexp; split_ifs <;> simp_all

theorem ruleGlog_ok {rd a : SReg} : ruleGlog rd a s = .ok t ↔
    s.ready = true ∧ elemsOk s [a] [] = true ∧ s.readS a ≠ 0 ∧ s.writeS rd (glogNz s.gf (s.readS a)) = t := by
  unfold ruleGlog; split_ifs <;> simp_all

theorem rulePget_ok {rd : SReg} {pa : PReg} {b : SReg} : rulePget rd pa b s = .ok t ↔
    s.intS b < s.lenP pa ∧ s.writeS rd ((s.readP pa).getD (s.intS b) 0) = t := by
  unfold rulePget; split_ifs <;> simp_all

theorem rulePput_ok {pd : PReg} {a b : SReg} : rulePput pd a b s = .ok t ↔
    s.intS a < s.lenP pd ∧ s.writeP pd ((s.readP pd).set (s.intS a) (s.readS b)) = t := by
  unfold rulePput; split_ifs <;> simp_all

theorem rulePsetlen_ok {pd : PReg} {a : SReg} : rulePsetlen pd a s = .ok t ↔
    s.intS a ≤ Config.pcap ∧ s.writeP pd (setLen (s.intS a) (s.readP pd)) = t := by
  unfold rulePsetlen; split_ifs <;> simp_all

theorem rulePeval_ok {rd : SReg} {pa : PReg} {b : SReg} : rulePeval rd pa b s = .ok t ↔
    s.ready = true ∧ elemsOk s [b] [pa] = true ∧ s.writeS rd (evalD s.gf 0 (s.readP pa) (s.readS b)) = t := by
  unfold rulePeval; split_ifs <;> simp_all

theorem rulePevala_ok {rd : SReg} {pa : PReg} {b : SReg} : rulePevala rd pa b s = .ok t ↔
    s.ready = true ∧ elemsOk s [b] [pa] = true ∧ s.writeS rd (evalA s.gf (s.readP pa) (s.readS b)) = t := by
  unfold rulePevala; split_ifs <;> simp_all

theorem rulePevalc_ok {rd : SReg} {pa : PReg} {b c : SReg} : rulePevalc rd pa b c s = .ok t ↔
    s.ready = true ∧ elemsOk s [b, c] [pa] = true ∧
      s.writeS rd (evalD s.gf (s.readS c) (s.readP pa) (s.readS b)) = t := by
  unfold rulePevalc; split_ifs <;> simp_all

theorem rulePmul_ok {pd pa pb : PReg} : rulePmul pd pa pb s = .ok t ↔
    s.ready = true ∧ s.lenP pa + s.lenP pb ≤ Config.pcap + 1 ∧ elemsOk s [] [pa, pb] = true ∧
      s.writeP pd (pmul s.gf (s.readP pa) (s.readP pb)) = t := by
  unfold rulePmul; split_ifs <;> simp_all

theorem rulePdiv_ok {pd pa pb pc : PReg} : rulePdiv pd pa pb pc s = .ok t ↔
    pd ≠ pc ∧ s.ready = true ∧ elemsOk s [] [pa, pb] = true ∧
      ∃ q r, pdivmod s.gf (s.readP pa) (s.readP pb) = .ok (q, r) ∧ (s.writeP pc q).writeP pd r = t := by
  unfold rulePdiv; split_ifs <;> simp_all
  rcases pdivmod s.gf (s.readP pa) (s.readP pb) with e | ⟨q, r⟩ <;> simp

theorem rulePaddsb_ok {pd pa pb : PReg} {c : SReg} : rulePaddsb pd pa pb c s = .ok t ↔
    s.ready = true ∧ elemsOk s [c] [pa, pb] = true ∧
      s.writeP pd (paddsb s.gf (s.readP pa) (s.readP pb) (s.readS c)) = t := by
  unfold rulePaddsb; split_ifs <;> simp_all

theorem ruleRsgen_ok {a : SReg} : ruleRsgen a s = .ok t ↔
    s.ready = true ∧ s.intS a ≤ s.q ∧
      { s with gpoly := gen s.gf (s.intS a) s.b, gdeg := s.readS a, gvalid := true } = t := by
  unfold ruleRsgen; split_ifs <;> simp_all

theorem ruleRsenc_ok {pd pa : PReg} : ruleRsenc pd pa s = .ok t ↔
    s.ready = true ∧ s.gvalid = true ∧ s.lenP pa + s.gdeg.toNat ≤ s.q ∧ elemsOk s [] [pa] = true ∧
      ∃ e, enc s.gf s.gpoly (s.readP pa) = .ok e ∧ s.writeP pd e = t := by
  unfold ruleRsenc; split_ifs <;> simp_all
  cases enc s.gf s.gpoly (s.readP pa) <;> simp

theorem ruleRssyn_ok {pd pa pb : PReg} : ruleRssyn pd pa pb s = .ok t ↔
    s.ready = true ∧ s.gvalid = true ∧ s.lenP pb = s.gdeg.toNat ∧ s.lenP pa + s.lenP pb ≤ s.q ∧
      elemsOk s [] [pa, pb] = true ∧ s.writeP pd (syn s.gf (s.readP pa) (s.readP pb) s.gdeg.toNat s.b) = t := by
  unfold ruleRssyn; split_ifs <;> simp_all

theorem ruleRsbm_ok {pd pa : PReg} : ruleRsbm pd pa s = .ok t ↔
    s.ready = true ∧ s.lenP pa < Config.pcap ∧ elemsOk s [] [pa] = true ∧ s.writeP pd (bm s.gf (s.readP pa)) = t := by
  unfold ruleRsbm; split_ifs <;> simp_all

theorem ruleRschien_ok {pd pa : PReg} {b : SReg} : ruleRschien pd pa b s = .ok t ↔
    s.ready = true ∧ s.intS b ≤ s.q ∧ elemsOk s [] [pa] = true ∧
      { s.writeP pd (chien s.gf (s.readP pa) (s.intS b)).1 with
          fOk := (chien s.gf (s.readP pa) (s.intS b)).2 } = t := by
  unfold ruleRschien; split_ifs <;> simp_all

theorem ruleRsforney_ok {pd pa pb pc : PReg} : ruleRsforney pd pa pb pc s = .ok t ↔
    s.ready = true ∧ s.lenP pd + s.lenP pa ≤ s.q ∧ s.lenP pb ≠ 0 ∧ elemsOk s [] [pd, pa, pb] = true ∧
      (∀ p ∈ s.readP pc, p.toNat < s.lenP pd + s.lenP pa) ∧
      ∃ out, forney s.gf (s.readP pd) (s.readP pa) (s.readP pb) (s.readP pc) s.b = .ok out ∧ s.writeP pd out = t := by
  unfold ruleRsforney
  split_ifs with h1 h2 h3 h4
  · simp_all
  · simp only [false_iff]; rintro ⟨-, h5, h6, -⟩; omega
  · simp_all
  · simp only [false_iff]; rintro ⟨-, -, -, -, h5, -⟩; simp at h4; obtain ⟨x, hx, h6⟩ := h4
    have := h5 x hx; omega
  · have h2' := not_or.mp h2
    have h4' : ∀ p ∈ s.readP pc, p.toNat < s.lenP pd + s.lenP pa := by simpa using h4
    cases hf : forney s.gf (s.readP pd) (s.readP pa) (s.readP pb) (s.readP pc) s.b <;> simp_all

theorem ruleRsdec_ok {pd pa : PReg} : ruleRsdec pd pa s = .ok t ↔
    s.ready = true ∧ s.gvalid = true ∧ s.lenP pa = s.gdeg.toNat ∧ s.lenP pd + s.lenP pa ≤ s.q ∧
      elemsOk s [] [pd, pa] = true ∧
      ∃ out ok cnt, dec s.gf (s.readP pd) (s.readP pa) s.gdeg.toNat s.b = .ok (out, ok, cnt) ∧
        { s.writeP pd out with fOk := ok, errcount := BitVec.ofNat 16 cnt } = t := by
  unfold ruleRsdec
  split_ifs with h1 h2 h3 h4 h5
  · simp_all
  · simp_all
  · simp_all
  · simp only [false_iff]; rintro ⟨-, -, -, h6, -⟩; omega
  · simp_all
  · have h4' := not_lt.mp h4
    rcases hd : dec s.gf (s.readP pd) (s.readP pa) s.gdeg.toNat s.b with e | ⟨out, ok, cnt⟩
    · simp
    · simp only [Except.ok.injEq, Prod.mk.injEq]
      constructor
      · exact fun h => ⟨by simpa using h1, by simpa using h2, by simpa using h3, h4', by simpa using h5, out, ok, cnt,
          ⟨rfl, rfl, rfl⟩, h⟩
      · rintro ⟨-, -, -, -, -, _, _, _, ⟨rfl, rfl, rfl⟩, h⟩
        exact h

end

/-! ## Moves and steps (R328) -/

/-- The completion step performs the decoded command, or raises E_ILLEGAL (R280, R96). -/
theorem perform_cases (s : State) :
    (∃ i, decode s.inflight = .ok i ∧ perform s = exec i s) ∨
      ∃ r, decode s.inflight = .error r ∧ perform s = .next (s.recordError .illegal s.inflight).finish := by
  unfold perform
  cases h : decode s.inflight with
  | ok i => exact .inl ⟨i, rfl, rfl⟩
  | error r => exact .inr ⟨r, rfl, rfl⟩

@[simp] theorem engineTurn_idle {s : State} (h : s.busy = false) : engineTurn s = .next s := by
  simp [engineTurn, h]

@[simp] theorem engineTurn_busy {s : State} (h : s.busy = true) : engineTurn s = perform s := by
  simp [engineTurn, h]

/-- Every step answers a next state: the completion of the command in execution, a host access, a reset, or (idle and
nothing left to do) the same state. -/
theorem step_cases (s t : State) (h : step s = .next t) :
    (∃ u, (u = s ∨ ∃ m rest, s.agenda = m :: rest ∧ u = { s with agenda := rest }) ∧
      ((u.busy = false ∧ t = u) ∨
        (u.busy = true ∧ ∃ r, t = complete u r ∧
          ((∃ i, decode u.inflight = .ok i ∧ r = rule i u) ∨
            (∃ e, decode u.inflight = .error e) ∧ r = .error .illegal)))) ∨
    (∃ a rest, s.agenda = .access a :: rest ∧ t = State.access { s with agenda := rest } a) ∨
    (∃ rest, s.agenda = .powerOn :: rest ∧ t = State.resetEngine { s with agenda := rest }) := by
  have turn : ∀ u : State, engineTurn u = .next t → ((u.busy = false ∧ t = u) ∨
        (u.busy = true ∧ ∃ r, t = complete u r ∧
          ((∃ i, decode u.inflight = .ok i ∧ r = rule i u) ∨
            (∃ e, decode u.inflight = .error e) ∧ r = .error .illegal))) := by
    intro u hu
    cases hb : u.busy with
    | false => rw [engineTurn_idle hb] at hu; cases hu; exact .inl ⟨rfl, rfl⟩
    | true =>
      rw [engineTurn_busy hb] at hu
      refine .inr ⟨rfl, ?_⟩
      rcases perform_cases u with ⟨i, hi, hp⟩ | ⟨e, he, hp⟩
      · rw [hp, exec_eq] at hu; cases hu
        exact ⟨_, rfl, .inl ⟨i, hi, rfl⟩⟩
      · rw [hp] at hu; cases hu
        exact ⟨.error .illegal, rfl, .inr ⟨⟨e, he⟩, rfl⟩⟩
  unfold step at h
  split at h
  · exact .inl ⟨s, .inl rfl, turn s h⟩
  · rename_i m rest hm
    cases m with
    | access a => cases h; exact .inr (.inl ⟨a, rest, hm, rfl⟩)
    | engine => exact .inl ⟨_, .inr ⟨_, rest, hm, rfl⟩, turn _ h⟩
    | powerOn => cases h; exact .inr (.inr ⟨rest, hm, rfl⟩)

/-- A step never faults and never refuses. -/
theorem step_next (s : State) : ∃ t, step s = .next t := by
  have perf : ∀ u, ∃ t, engineTurn u = .next t := by
    intro u
    unfold engineTurn
    split
    · rcases perform_cases u with ⟨i, -, hp⟩ | ⟨e, -, hp⟩
      · exact ⟨_, by rw [hp, exec_eq]⟩
      · exact ⟨_, hp⟩
    · exact ⟨_, rfl⟩
  unfold step
  split
  · exact perf s
  · rename_i m rest _
    cases m with
    | access a => exact ⟨_, rfl⟩
    | engine => exact perf _
    | powerOn => exact ⟨_, rfl⟩

end Sys2Proof.Machine
end

