-- ==== Sys2Proof/Laws/Galois.lean ====
section
/-! SUPPORT. The tables that BUILD makes, place by place (40_control.md rule R123). -/

namespace Sys2Proof.Machine

@[simp] theorem expSeq_length (m p n e : Nat) : (expSeq m p n e).length = n := by
  induction n generalizing e with
  | zero => rfl
  | succ n ih => simp [expSeq, ih]

@[simp] theorem buildExp_length (m p : Nat) : (buildExp m p).length = groupOrder m := by simp [buildExp]

@[simp] theorem buildLog_length (m : Nat) (E : List Elem) : (buildLog m E).length = 2 ^ m := by simp [buildLog]

/-- k applications of xtime from e. -/
theorem xtime_iterate_succ (m p k e : Nat) : (xtime m p)^[k + 1] e = xtime m p ((xtime m p)^[k] e) :=
  Function.iterate_succ_apply' _ _ _

theorem alphaPow_eq_iterate (m p k : Nat) : alphaPow m p k = (xtime m p)^[k] 1 := by
  induction k with
  | zero => rfl
  | succ k ih => rw [xtime_iterate_succ, alphaPow, ih]

theorem expSeq_getElem? (m p n e i : Nat) (h : i < n) :
    (expSeq m p n e)[i]? = some (BitVec.ofNat 16 ((xtime m p)^[i] e)) := by
  induction n generalizing e i with
  | zero => omega
  | succ n ih =>
    cases i with
    | zero => rfl
    | succ i => simp only [expSeq, List.getElem?_cons_succ, Function.iterate_succ_apply]; exact ih _ _ (by omega)

/-- EXP[i] = α^i (R40, R123). -/
theorem buildExp_getElem? (m p i : Nat) (h : i < groupOrder m) :
    (buildExp m p)[i]? = some (BitVec.ofNat 16 (alphaPow m p i)) := by
  rw [buildExp, expSeq_getElem? m p _ _ _ h, alphaPow_eq_iterate]

/-- LOG[a] is the place of a in EXP, and LOG[0] = 0 (R40, R123). -/
theorem buildLog_getElem? (m : Nat) (E : List Elem) (a : Nat) (h : a < 2 ^ m) :
    (buildLog m E)[a]? = some (if a = 0 then 0 else BitVec.ofNat 16 (E.idxOf (BitVec.ofNat 16 a))) := by
  simp [buildLog, h]

@[simp] theorem builtGf_m (m p : Nat) : (builtGf m p).m = m := rfl
@[simp] theorem builtGf_exp (m p : Nat) : (builtGf m p).exp = buildExp m p := rfl
@[simp] theorem builtGf_log (m p : Nat) : (builtGf m p).log = buildLog m (buildExp m p) := rfl

@[simp] theorem gadd_self (a : Elem) : gadd a a = 0 := by simp [gadd]
@[simp] theorem gadd_zero (a : Elem) : gadd a 0 = a := by simp [gadd]
@[simp] theorem zero_gadd (a : Elem) : gadd 0 a = a := by simp [gadd]
theorem gadd_comm (a b : Elem) : gadd a b = gadd b a := by simp [gadd, BitVec.xor_comm]
theorem gadd_assoc (a b c : Elem) : gadd (gadd a b) c = gadd a (gadd b c) := by simp [gadd, BitVec.xor_assoc]

@[simp] theorem gmul_zero (F : Gf) (a : Elem) : gmul F a 0 = 0 := by simp [gmul]
@[simp] theorem zero_gmul (F : Gf) (a : Elem) : gmul F 0 a = 0 := by simp [gmul]

end Sys2Proof.Machine
end

