-- ==== Sys2Proof/Laws/PerInstr.lean ====
section
/-! SUPPORT. Statements about every command as syntax, one lemma per constructor: the encoded word carries the command's
opcode in its OP field (30_encoding.md rules R91, R95). -/

namespace Sys2Proof

/-- OP of a packed word is the opcode it was packed with (R91). -/
theorem fieldOP_pack (op : BitVec 8) (d a b c : BitVec 4) : fieldOP (pack op d a b c) = op := by
  unfold fieldOP pack
  apply BitVec.eq_of_getLsbD_eq
  intro i hi
  rw [BitVec.getLsbD_extractLsb', BitVec.getLsbD_append]
  simp; intro h; omega

/-- OP of a packed format I word is the opcode it was packed with (R91). -/
theorem fieldOP_packI (op : BitVec 8) (d : BitVec 4) (imm : Elem) : fieldOP (packI op d imm) = op := by
  unfold fieldOP packI
  apply BitVec.eq_of_getLsbD_eq
  intro i hi
  rw [BitVec.getLsbD_extractLsb', BitVec.getLsbD_append]
  simp; intro h; omega

namespace Laws.EncodeOpcode

/-- The command's word has the command's opcode in OP. -/
def Statement (i : Instr) : Prop := fieldOP (encode i) = i.opcode

theorem nop : Statement (.nop) := fieldOP_pack _ _ _ _ _
theorem build : Statement (.build) := fieldOP_pack _ _ _ _ _
theorem li (rd : SReg) (imm : Elem) : Statement (.li rd imm) := fieldOP_packI _ _ _
theorem gadd (rd rs1 rs2 : SReg) : Statement (.gadd rd rs1 rs2) := fieldOP_pack _ _ _ _ _
theorem gmul (rd rs1 rs2 : SReg) : Statement (.gmul rd rs1 rs2) := fieldOP_pack _ _ _ _ _
theorem gdiv (rd rs1 rs2 : SReg) : Statement (.gdiv rd rs1 rs2) := fieldOP_pack _ _ _ _ _
theorem ginv (rd rs1 : SReg) : Statement (.ginv rd rs1) := fieldOP_pack _ _ _ _ _
theorem gpow (rd rs1 rs2 : SReg) : Statement (.gpow rd rs1 rs2) := fieldOP_pack _ _ _ _ _
theorem gexp (rd rs1 : SReg) : Statement (.gexp rd rs1) := fieldOP_pack _ _ _ _ _
theorem glog (rd rs1 : SReg) : Statement (.glog rd rs1) := fieldOP_pack _ _ _ _ _
theorem pget (rd : SReg) (pa : PReg) (rs2 : SReg) : Statement (.pget rd pa rs2) := fieldOP_pack _ _ _ _ _
theorem pput (pd : PReg) (rs1 rs2 : SReg) : Statement (.pput pd rs1 rs2) := fieldOP_pack _ _ _ _ _
theorem plen (rd : SReg) (pa : PReg) : Statement (.plen rd pa) := fieldOP_pack _ _ _ _ _
theorem psetlen (pd : PReg) (rs1 : SReg) : Statement (.psetlen pd rs1) := fieldOP_pack _ _ _ _ _
theorem pmov (pd pa : PReg) : Statement (.pmov pd pa) := fieldOP_pack _ _ _ _ _
theorem prev (pd pa : PReg) : Statement (.prev pd pa) := fieldOP_pack _ _ _ _ _
theorem pstrip (pd pa : PReg) : Statement (.pstrip pd pa) := fieldOP_pack _ _ _ _ _
theorem peval (rd : SReg) (pa : PReg) (rs2 : SReg) : Statement (.peval rd pa rs2) := fieldOP_pack _ _ _ _ _
theorem pevala (rd : SReg) (pa : PReg) (rs2 : SReg) : Statement (.pevala rd pa rs2) := fieldOP_pack _ _ _ _ _
theorem pevalc (rd : SReg) (pa : PReg) (rs2 rs3 : SReg) : Statement (.pevalc rd pa rs2 rs3) := fieldOP_pack _ _ _ _ _
theorem pmul (pd pa pb : PReg) : Statement (.pmul pd pa pb) := fieldOP_pack _ _ _ _ _
theorem pdiv (pd pa pb pc : PReg) : Statement (.pdiv pd pa pb pc) := fieldOP_pack _ _ _ _ _
theorem paddsb (pd pa pb : PReg) (rs3 : SReg) : Statement (.paddsb pd pa pb rs3) := fieldOP_pack _ _ _ _ _
theorem rsgen (rs1 : SReg) : Statement (.rsgen rs1) := fieldOP_pack _ _ _ _ _
theorem rsenc (pd pa : PReg) : Statement (.rsenc pd pa) := fieldOP_pack _ _ _ _ _
theorem rssyn (pd pa pb : PReg) : Statement (.rssyn pd pa pb) := fieldOP_pack _ _ _ _ _
theorem rsbm (pd pa : PReg) : Statement (.rsbm pd pa) := fieldOP_pack _ _ _ _ _
theorem rschien (pd pa : PReg) (rs2 : SReg) : Statement (.rschien pd pa rs2) := fieldOP_pack _ _ _ _ _
theorem rsforney (pd pa pb pc : PReg) : Statement (.rsforney pd pa pb pc) := fieldOP_pack _ _ _ _ _
theorem rsdec (pd pa : PReg) : Statement (.rsdec pd pa) := fieldOP_pack _ _ _ _ _

end Laws.EncodeOpcode

end Sys2Proof
end

