-- ==== Sys2Proof/Machine/Pseudo.lean ====
section
/-! DEFINITION. The pseudo-instructions and the assembler's spelling (30_encoding.md rules R99, R100). Each pseudo-instruction
is another name for one command's words, so it adds no command. -/

namespace Sys2Proof.Machine

/-- gsub rd, rs1, rs2 is gadd (R100). -/
def pseudoGsub (rd rs1 rs2 : SReg) : Instr := .gadd rd rs1 rs2

/-- gsqr rd, rs is gmul rd, rs, rs (R100). -/
def pseudoGsqr (rd rs : SReg) : Instr := .gmul rd rs rs

/-- fmov rd, rs is gadd rd, rs, s0 (R100). -/
def pseudoFmov (rd rs : SReg) : Instr := .gadd rd rs 0

/-- clr rd is li rd, 0 (R100). -/
def pseudoClr (rd : SReg) : Instr := .li rd 0

/-- pclr pd is psetlen pd, s0 (R100). -/
def pseudoPclr (pd : PReg) : Instr := .psetlen pd 0

/-- peval0 rd, pa, rs is pevalc rd, pa, rs, s0 (R100). -/
def pseudoPeval0 (rd : SReg) (pa : PReg) (rs : SReg) : Instr := .pevalc rd pa rs 0

/-- A scalar register's name, s0..s15 (R99). -/
def sname (r : SReg) : String := "s" ++ toString r.val

/-- A polynomial register's name, p0..p7 (R99). -/
def pname (k : PReg) : String := "p" ++ toString k.val

/-- A mnemonic and its operands, separated by commas (R99). -/
def asmLine (name : String) (ops : List String) : String :=
  if ops = [] then name else name ++ " " ++ ", ".intercalate ops

/-- The assembler line of a command: lower-case mnemonic, operands in the order D, A, B, C (R99). -/
def asm : Instr → String
  | .nop => asmLine "nop" []
  | .build => asmLine "build" []
  | .li rd imm => asmLine "li" [sname rd, toString imm.toNat]
  | .gadd rd a b => asmLine "gadd" [sname rd, sname a, sname b]
  | .gmul rd a b => asmLine "gmul" [sname rd, sname a, sname b]
  | .gdiv rd a b => asmLine "gdiv" [sname rd, sname a, sname b]
  | .ginv rd a => asmLine "ginv" [sname rd, sname a]
  | .gpow rd a b => asmLine "gpow" [sname rd, sname a, sname b]
  | .gexp rd a => asmLine "gexp" [sname rd, sname a]
  | .glog rd a => asmLine "glog" [sname rd, sname a]
  | .pget rd pa b => asmLine "pget" [sname rd, pname pa, sname b]
  | .pput pd a b => asmLine "pput" [pname pd, sname a, sname b]
  | .plen rd pa => asmLine "plen" [sname rd, pname pa]
  | .psetlen pd a => asmLine "psetlen" [pname pd, sname a]
  | .pmov pd pa => asmLine "pmov" [pname pd, pname pa]
  | .prev pd pa => asmLine "prev" [pname pd, pname pa]
  | .pstrip pd pa => asmLine "pstrip" [pname pd, pname pa]
  | .peval rd pa b => asmLine "peval" [sname rd, pname pa, sname b]
  | .pevala rd pa b => asmLine "pevala" [sname rd, pname pa, sname b]
  | .pevalc rd pa b c => asmLine "pevalc" [sname rd, pname pa, sname b, sname c]
  | .pmul pd pa pb => asmLine "pmul" [pname pd, pname pa, pname pb]
  | .pdiv pd pa pb pc => asmLine "pdiv" [pname pd, pname pa, pname pb, pname pc]
  | .paddsb pd pa pb c => asmLine "paddsb" [pname pd, pname pa, pname pb, sname c]
  | .rsgen a => asmLine "rsgen" [sname a]
  | .rsenc pd pa => asmLine "rsenc" [pname pd, pname pa]
  | .rssyn pd pa pb => asmLine "rssyn" [pname pd, pname pa, pname pb]
  | .rsbm pd pa => asmLine "rsbm" [pname pd, pname pa]
  | .rschien pd pa b => asmLine "rschien" [pname pd, pname pa, sname b]
  | .rsforney pd pa pb pc => asmLine "rsforney" [pname pd, pname pa, pname pb, pname pc]
  | .rsdec pd pa => asmLine "rsdec" [pname pd, pname pa]

end Sys2Proof.Machine
end

