-- ==== Sys2Proof/Tests/Slice0.lean ====
section
/-! SUPPORT. Tests of one step each, with expected values from 95_test_vectors.md and from the encoding rules R91 to R95, and
the witnesses of the obligations' hypotheses. -/

namespace Sys2Proof.Tests

open Sys2Proof.Machine

-- One theorem after the other: the kernel evaluates each before the next starts.
set_option Elab.async false

/-! ## Well-formedness and decoding -/

/-- R96(e): the one check of WellFormed refuses a PDIV whose destinations coincide. -/
theorem test_wf_refuses_pdiv_same_destination : Instr.wf (.pdiv 0 1 2 0) = false ∧ Instr.wf (.pdiv 0 1 2 3) = true := by decide

/-- Words from the example of each command's rule, one per constructor. -/
theorem test_decode_scalar :
    decode 0x01000000 = .ok .nop ∧ decode 0x02000000 = .ok .build ∧ decode 0x1010001D = .ok (.li 1 0x1D) ∧
    decode 0x11312000 = .ok (.gadd 3 1 2) ∧ decode 0x12312000 = .ok (.gmul 3 1 2) ∧
    decode 0x13312000 = .ok (.gdiv 3 1 2) ∧ decode 0x14310000 = .ok (.ginv 3 1) ∧
    decode 0x15312000 = .ok (.gpow 3 1 2) ∧ decode 0x16310000 = .ok (.gexp 3 1) ∧
    decode 0x17310000 = .ok (.glog 3 1) := by decide

theorem test_decode_polynomial :
    decode 0x20402000 = .ok (.pget 4 0 2) ∧ decode 0x21112000 = .ok (.pput 1 1 2) ∧
    decode 0x22520000 = .ok (.plen 5 2) ∧ decode 0x23310000 = .ok (.psetlen 3 1) ∧
    decode 0x24500000 = .ok (.pmov 5 0) ∧ decode 0x25210000 = .ok (.prev 2 1) ∧
    decode 0x26230000 = .ok (.pstrip 2 3) ∧ decode 0x30402000 = .ok (.peval 4 0 2) ∧
    decode 0x31402000 = .ok (.pevala 4 0 2) ∧ decode 0x32512500 = .ok (.pevalc 5 1 2 5) ∧
    decode 0x33201000 = .ok (.pmul 2 0 1) ∧ decode 0x34301400 = .ok (.pdiv 3 0 1 4) ∧
    decode 0x35201600 = .ok (.paddsb 2 0 1 6) := by decide

theorem test_decode_rs :
    decode 0x40010000 = .ok (.rsgen 1) ∧ decode 0x41100000 = .ok (.rsenc 1 0) ∧
    decode 0x42201000 = .ok (.rssyn 2 0 1) ∧ decode 0x43320000 = .ok (.rsbm 3 2) ∧
    decode 0x44437000 = .ok (.rschien 4 3 7) ∧ decode 0x45023400 = .ok (.rsforney 0 2 3 4) ∧
    decode 0x46010000 = .ok (.rsdec 0 1) := by decide

/-- V7: the illegal words. -/
theorem test_decode_rejects :
    decode 0x00000000 = .error .unassignedOpcode ∧ decode 0xFF000000 = .error .unassignedOpcode ∧
    decode 0x03000000 = .error .unassignedOpcode ∧ decode 0x01000001 = .error .mustBeZero ∧
    decode 0x11312001 = .error .mustBeZero ∧ decode 0x14312000 = .error .mustBeZero ∧
    decode 0x24800000 = .error .polyField ∧ decode 0x34301300 = .error .pdivSameDestination ∧
    decode 0x10110000 = .error .mustBeZero ∧ decode 0x40110000 = .error .mustBeZero ∧
    decode 0x02000100 = .error .mustBeZero := by decide

/-- The encoder gives the words of the rules' examples. -/
theorem test_encode :
    encode (.li 1 0x1D) = 0x1010001D ∧ encode (.pevalc 5 1 2 5) = 0x32512500 ∧ encode (.rsgen 1) = 0x40010000 ∧
    encode (.paddsb 2 0 1 6) = 0x35201600 ∧ encode (.psetlen 3 1) = 0x23310000 := by decide

/-- R100: the words of the pseudo-instructions. -/
theorem test_pseudo (rd rs1 rs2 : SReg) (pd pa : PReg) :
    pseudoGsub rd rs1 rs2 = .gadd rd rs1 rs2 ∧ pseudoGsqr rd rs1 = .gmul rd rs1 rs1 ∧
    pseudoFmov rd rs1 = .gadd rd rs1 0 ∧ pseudoClr rd = .li rd 0 ∧ pseudoPclr pd = .psetlen pd 0 ∧
    pseudoPeval0 rd pa rs1 = .pevalc rd pa rs1 0 := ⟨rfl, rfl, rfl, rfl, rfl, rfl⟩

/-- R99: the assembler's spelling. -/
theorem test_asm : asm (.pdiv 3 0 1 4) = "pdiv p3, p0, p1, p4" ∧ asm (.li 1 29) = "li s1, 29" := by decide +kernel

/-! ## Small states -/

/-- The state an outcome carries. -/
def after (o : Host.Outcome State Fault Refusal) : State :=
  match o with
  | .next s => s
  | .fault r => nomatch r
  | .refused _ => State.reset

/-- The state after one command. -/
def run (i : Instr) (s : State) : State := after (exec i s)

/-- Reset, then BUILD of the given configuration, DONE clear. -/
def built (m : BitVec 5) (p : BitVec 17) : State := latchConfig { State.reset with cfgM := m, cfgPoly := p }

/-- The start state of 95_test_vectors.md: m = 8, POLY = 0x11D, b = 0. -/
def m8 : State := built 8 0x11D

/-- m8 with S1 and S2 set. -/
def m8xy (x y : Elem) : State := (m8.writeS 1 x).writeS 2 y

/-- m8 with P0 and P1 set and S2 = 2, S6 = 2. -/
def m8pq (p q : Poly) : State := (((m8.writeP 0 p).writeP 1 q).writeS 2 2).writeS 6 2

/-- V5's generator for m = 8, b = 0, d = 4. -/
def m8g : State := { m8 with gpoly := [1, 15, 54, 120, 64], gdeg := 4, gvalid := true }

/-! ## One step of each command -/

/-- V1.23: NOP sets DONE; STATUS reads 0x06. V1.7: BUILD of m = 2, p = 7. -/
theorem test_nop : (run .nop m8).statusWord = 0x06 := by decide +kernel

theorem test_build : (run .build { State.reset with cfgM := 2, cfgPoly := 7 }).statusWord = 0x06 ∧
    (run .build State.reset).expTable.getD 8 0 = 0x1D := by decide +kernel

/-- V1.16, V1.21, V1.19, V1.20. -/
theorem test_build_rejects :
    (run .build { State.reset with cfgM := 2, cfgPoly := 5 }).statusWord = 0x90C ∧
    (run .build { State.reset with cfgPoly := 0x1D }).statusWord = 0x90C ∧
    (run .build { State.reset with cfgM := 17, cfgPoly := 3 }).statusWord = 0x90C ∧
    (run .build { State.reset with cfgBase := 2 }).statusWord = 0x90C := by decide +kernel

/-- R124: table values for m = 4 and m = 8, and the rejected m = 4, p = 0x1F. -/
theorem test_tables :
    buildExp 4 0x13 = [1, 2, 4, 8, 3, 6, 12, 11, 5, 10, 7, 14, 15, 13, 9] ∧
    (buildExp 8 0x11D).drop 250 = [108, 216, 173, 71, 142] ∧ (buildLog 8 (buildExp 8 0x11D)).getD 255 0 = 175 ∧
    validConfig 4 0x1F 0 = false := by decide +kernel

/-- V2.48, V2.49. -/
theorem test_li : (run (.li 1 0xFFFF) m8).readS 1 = 0xFFFF ∧ (run (.li 0 0x1234) m8).readS 0 = 0 := by decide +kernel

/-- V2.42. -/
theorem test_gadd : (run (.gadd 3 1 2) (m8xy 0x53 0xCA)).readS 3 = 0x99 := by decide +kernel

/-- V2.1; V2.53 in m = 4. -/
theorem test_gmul : (run (.gmul 3 1 2) (m8xy 0x53 0xCA)).readS 3 = 0x8F ∧
    (run (.gmul 3 1 2) (((built 4 0x13).writeS 1 9).writeS 2 13)).readS 3 = 15 := by decide +kernel

/-- V2.13; V2.18. -/
theorem test_gdiv : (run (.gdiv 3 1 2) (m8xy 0x53 0xCA)).readS 3 = 0x6D ∧
    (run (.gdiv 3 1 2) (m8xy 0 0)).statusWord = 0x30E := by decide +kernel

/-- V2.7; V2.12. -/
theorem test_ginv : (run (.ginv 3 1) (m8xy 3 0)).readS 3 = 0xF4 ∧
    (run (.ginv 3 1) (m8xy 0 0)).statusWord = 0x30E := by decide +kernel

/-- V2.26; V2.24. -/
theorem test_gpow : (run (.gpow 3 1 2) (m8xy 3 100)).readS 3 = 0xA7 ∧
    (run (.gpow 3 1 2) (m8xy 2 65535)).readS 3 = 1 := by decide +kernel

/-- V2.31. -/
theorem test_gexp : (run (.gexp 3 1) (m8xy 256 0)).readS 3 = 2 := by decide +kernel

/-- V2.38; V2.41. -/
theorem test_glog : (run (.glog 3 1) (m8xy 0xFF 0)).readS 3 = 175 ∧
    (run (.glog 3 1) (m8xy 0x100 0)).statusWord = 0x40E := by decide +kernel

/-- V3.3, V3.2. -/
theorem test_pget : (run (.pget 2 0 2) ((State.reset.writeP 0 [7, 9]).writeS 2 0)).readS 2 = 7 ∧
    (run (.pget 4 0 2) ((State.reset.writeP 0 [7, 9]).writeS 2 2)).errcode = 5 := by decide +kernel

/-- V3.5. -/
theorem test_pput :
    (run (.pput 1 1 2) (((State.reset.writeP 1 [0, 0, 0]).writeS 1 2).writeS 2 0x55)).readP 1 = [0, 0, 0x55] := by
  decide +kernel

/-- V3.9. -/
theorem test_plen : (run (.plen 5 2) (State.reset.writeP 2 [1, 2, 3])).readS 5 = 3 := by decide +kernel

/-- V3.10: the length 65536 reads as 0. -/
theorem test_plen_truncates : (run (.plen 5 2) (State.reset.writeP 2 (List.replicate 65536 0))).readS 5 = 0 := by
  decide +kernel

/-- V3.11, V3.12. -/
theorem test_psetlen : (run (.psetlen 3 1) ((State.reset.writeP 3 [4, 5]).writeS 1 4)).readP 3 = [4, 5, 0, 0] ∧
    (run (.psetlen 3 1) ((State.reset.writeP 3 [4, 5]).writeS 1 1)).readP 3 = [4] := by decide +kernel

/-- V3.14, V3.15, V3.17, V3.18. -/
theorem test_pmov_prev_pstrip :
    (run (.pmov 5 0) (State.reset.writeP 0 [1, 2])).readP 5 = [1, 2] ∧
    (run (.prev 1 1) (State.reset.writeP 1 [3, 0, 7])).readP 1 = [7, 0, 3] ∧
    (run (.pstrip 2 2) (State.reset.writeP 2 [0, 0, 5, 0])).readP 2 = [5, 0] ∧
    (run (.pstrip 2 3) (State.reset.writeP 3 [0, 0, 0])).readP 2 = [] := by decide +kernel

/-- V4.1, V4.6, V4.8. -/
theorem test_evaluation :
    (run (.peval 4 0 2) (m8pq [1, 2, 3] [])).readS 4 = 3 ∧ (run (.pevala 4 0 2) (m8pq [1, 2, 3] [])).readS 4 = 9 ∧
    (run (.pevalc 5 1 2 5) ((m8pq [] [4, 5]).writeS 5 3)).readS 5 = 1 := by decide +kernel

/-- V4.10. -/
theorem test_pmul : (run (.pmul 2 0 1) (m8pq [2, 3] [4, 5, 6])).readP 2 = [8, 6, 3, 10] := by decide +kernel

/-- V4.15; V4.18. -/
theorem test_pdiv :
    (run (.pdiv 3 0 1 4) (m8pq [6, 0, 3] [3, 1])).readP 3 = [246] ∧
    (run (.pdiv 3 0 1 4) (m8pq [6, 0, 3] [3, 1])).readP 4 = [2, 245] ∧
    (run (.pdiv 3 0 1 4) (m8pq [] [1, 2])).readP 3 = [0] := by decide +kernel

/-- V4.25. -/
theorem test_paddsb : (run (.paddsb 2 0 1 6) (m8pq [1, 2, 3] [5, 6])).readP 2 = [1, 8, 15] := by decide +kernel

/-- V5.4a; V5.4g. -/
theorem test_rsgen : (run (.rsgen 1) (m8.writeS 1 4)).gpoly = [1, 15, 54, 120, 64] ∧
    (run (.rsgen 1) (m8.writeS 1 256)).statusWord = 0x60E := by decide +kernel

/-- V5.5; V5.14. -/
theorem test_rsenc : (run (.rsenc 1 0) (m8g.writeP 0 [1, 2, 3, 4, 5, 6, 7, 8])).readP 1 = [69, 83, 235, 245] ∧
    (run (.rsenc 1 0) (m8.writeP 0 [1, 2])).statusWord = 0x70E := by decide +kernel

/-- V6.2, the syndromes; V6.16. -/
theorem test_rssyn :
    (run (.rssyn 2 0 1) ((m8g.writeP 0 [1, 2, 86, 4, 5, 6, 7, 8]).writeP 1 [69, 83, 235, 245])).readP 2 =
      [85, 115, 252, 219] ∧
    (run (.rssyn 2 0 1) ((m8g.writeP 0 [1, 2, 86, 4, 5, 6, 7, 8]).writeP 1 [69, 83, 235])).statusWord = 0x84E := by
  decide +kernel

/-- V6.3, V6.37: the locators. -/
theorem test_rsbm : (run (.rsbm 3 2) (m8.writeP 2 [254, 126, 144, 156])).readP 3 = [38, 248, 1] ∧
    (run (.rsbm 3 2) (m8.writeP 2 [0, 1])).readP 3 = [1, 0, 1] := by decide +kernel

/-- V6.3, V6.20: the locations and F_OK. -/
theorem test_rschien :
    (run (.rschien 4 3 7) ((m8.writeP 3 [38, 248, 1]).writeS 7 12)).readP 4 = [7, 0] ∧
    (run (.rschien 4 3 7) ((m8.writeP 3 [38, 248, 1]).writeS 7 12)).fOk = true ∧
    (run (.rschien 4 3 7) (m8.writeS 7 3)).readP 4 = [2, 1, 0] ∧
    (run (.rschien 4 3 7) (m8.writeS 7 3)).fOk = false := by decide +kernel

/-- Forney's inputs of V6.2, with the given locations. -/
def forneyStart (locs : Poly) : State :=
  (((m8.writeP 0 [1, 2, 86, 4, 5, 6, 7, 8]).writeP 2 [85, 115, 252, 219]).writeP 3 [58, 1]).writeP 4 locs

/-- V6.2; V6.28, a repeated location. -/
theorem test_rsforney : (run (.rsforney 0 2 3 4) (forneyStart [2])).readP 0 = [1, 2, 3, 4, 5, 6, 7, 8] ∧
    (run (.rsforney 0 2 3 4) (forneyStart [2, 2])).errcode = 3 := by decide +kernel

/-- V6.3: two errors corrected; STATUS 0x56. -/
theorem test_rsdec :
    let s := (m8g.writeP 0 [254, 2, 3, 4, 5, 6, 7, 9]).writeP 1 [69, 83, 235, 245]
    (run (.rsdec 0 1) s).readP 0 = [1, 2, 3, 4, 5, 6, 7, 8] ∧ (run (.rsdec 0 1) s).errcount = 2 ∧
      (run (.rsdec 0 1) s).statusWord = 0x56 := by decide +kernel

/-- V6.5: three errors, a clean failure. -/
theorem test_rsdec_fails :
    let s := (m8g.writeP 0 [0, 3, 2, 4, 5, 6, 7, 8]).writeP 1 [69, 83, 235, 245]
    (run (.rsdec 0 1) s).readP 0 = [0, 3, 2, 4, 5, 6, 7, 8] ∧ (run (.rsdec 0 1) s).statusWord = 0x46 := by decide +kernel

/-! ## Errors, accesses and steps -/

/-- V7.8 and R286: an illegal word, and its priority over E_NOTREADY. -/
theorem test_illegal : (after (perform { State.reset with inflight := 0x11312001, busy := true })).errcode = 1 ∧
    (after (perform { State.reset with inflight := 0x34301300, busy := true })).errcmd = 0x34301300 := by decide +kernel

/-- V1.24 and R283: a first error is kept, and a second one sets ERROVF. -/
theorem test_second_error :
    (run (.gadd 3 1 2) { State.reset with err := true, errcode := 3, errcmd := 7 }).statusWord = 0x38C := by decide +kernel

/-- V8.17, V8.18, V8.22, V8.12: bus accesses. -/
theorem test_access :
    (State.reset.access (.write .word 0x080 0x20003)).readP 0 = [0, 0, 0] ∧
    (State.reset.access (.write .word 0x044 0x12345678)).readS 1 = 0x5678 ∧
    (State.reset.access (.read .word 0x034)).replies = [0] ∧ (State.reset.access (.read .word 0x034)).accerr = true ∧
    ((State.reset.writeP 0 [0, 0, 0]).access (.write .word 0x100008 0xABCD1234)).readP 0 = [0, 0, 0x1234] := by
  decide +kernel

/-- V8.31: a second CMD write while BUSY = 1 is dropped. -/
theorem test_busy_cmd_write :
    ((State.reset.access (.write .word 0x00C 0x02000000)).access (.write .word 0x00C 0x01000000)).inflight = 0x02000000 ∧
    ((State.reset.access (.write .word 0x00C 0x02000000)).access (.write .word 0x00C 0x01000000)).accerr = true := by
  decide +kernel

/-- withFetchWord makes the very next step perform the word: LI s1, 5. -/
theorem test_withFetchWord : (after (step (State.reset.withFetchWord 32 0x10100005))).readS 1 = 5 := by decide +kernel

/-- A host's program: two moves of the agenda, a CMD write and the execution unit's turn. -/
theorem test_agenda_step :
    (after (step (after (step { State.reset with
      agenda := [.access (.write .word 0x00C 0x10100005), .engine] })))).readS 1 = 5 := by decide +kernel

/-- R329: the run of a CMD write, its completion and a STATUS read has ended; without the read, or with a read while BUSY = 1
only, it has not. -/
theorem test_run_ends_when_polled :
    let issued := State.reset.access (.write .word 0x00C 0x01000000)
    let performed := after (step issued)
    (performed.access (.read .word 0x008)).ended ∧ ¬ performed.ended ∧
      ¬ (after (step (issued.access (.read .word 0x008)))).ended := by decide +kernel

/-! ## Witnesses: for each statement with hypotheses, states and operands that meet them, clause by clause -/

/-- GF(4) with S1 = 1, S2 = 2, S3 = 3, S4 = 4 (no element), P0 = [1, 2], P1 = [3], P2 = [], P3 = [0, 1], P4 = [4] (out of
range), and a generator of degree 1. -/
def w : State :=
  { built 2 7 with
    sregs := #v[0, 1, 2, 3, 4, 0, 0, 0, 0, 0, 0, 0, 0, 0, 0, 0]
    pregs := #v[[1, 2], [3], [], [0, 1], [4], [], [], []]
    gpoly := [1, 1], gdeg := 1, gvalid := true }

/-- w with the generator of degree 2: [1, 3, 2]. -/
def w2 : State := { w with gpoly := [1, 3, 2], gdeg := 2 }

/-- A bound on every element of a sequence as a check of the list: without it the kernel would try all 65536 elements. -/
theorem below_iff_all (l : Poly) (n : Nat) : (∀ a ∈ l, a.toNat < n) ↔ l.all (fun a => decide (a.toNat < n)) = true := by
  simp

theorem test_witness_inv : w.Inv ∧ w2.Inv ∧ w.ready = true := by
  refine ⟨?_, ?_, rfl⟩ <;> constructor <;> decide +kernel

/-- ResetGivesEveryStateItsValue: a power-on move and a soft-reset write. -/
theorem test_witness_reset :
    { State.reset with agenda := [.powerOn] }.agenda = .powerOn :: [] ∧
    Access.softResets (.write .word 0x004 0x3) = true := by decide

/-- EveryStepKeepsTheInvariant: an invariant state that steps. -/
theorem test_witness_invariant_step : w.Inv ∧ step w = .next w := ⟨test_witness_inv.1, rfl⟩

/-- RegisterFilesReadWhatWasWritten: S15 beside S1, P7 beside P0. -/
theorem test_witness_registers : (15 : SReg) ≠ 0 ∧ (1 : SReg) ≠ 15 ∧ (7 : PReg) ≠ 0 := by decide

/-- DecodeOfEncodeIsTheCommand and EncodeOfDecodeIsTheWord, at the ends of the operand ranges. -/
theorem test_witness_encoding : Instr.wf (.pdiv 7 0 7 0) = true ∧ decode 0x34707000 = .ok (.pdiv 7 0 7 0) := by decide

/-- ExactlyTheIllegalWordsAreRejected: each reason of R96. -/
theorem test_witness_illegal :
    wordIllegal 0 ∧ wordIllegal 0x01000001 ∧ wordIllegal 0x24800000 ∧ wordIllegal 0x34301300 ∧
    wordIllegal { State.reset with inflight := 0xFF000000 }.inflight.toNat := by
  simp [wordIllegal, fieldUses, fieldIllegal]

/-- StepRunsTheDecodedCommand: the unit's turn next, an exhausted agenda, and a fetched table word. -/
theorem test_witness_step_runs :
    let s := { w with busy := true, inflight := 0x01000000, agenda := [.engine, .powerOn] }
    s.busy = true ∧ decode s.inflight = .ok .nop ∧ s.agenda = .engine :: [.powerOn] ∧ w.agenda = [] ∧
    decodeTableWord 32 0x01000000 = some .nop := by decide +kernel

/-- StepMakesTheNextMove: the four cases. -/
theorem test_witness_step_moves :
    { w with agenda := [.access (.read .word 0)] }.agenda = .access (.read .word 0) :: [] ∧ w.busy = false ∧
    { w with agenda := [.engine] }.agenda = .engine :: [] ∧ { w with agenda := [.powerOn] }.agenda = .powerOn :: [] ∧
    w.agenda = [] := by decide +kernel

/-- CommandFrame: a command with a next state, a register it does not write, and a command that is no RSDEC. -/
theorem test_witness_frame : exec .nop w = .next (run .nop w) ∧ scalarDest (.li 1 0) ≠ some 2 ∧
    (3 : PReg) ∉ polyDests (.pdiv 1 0 0 2) ∧ ∀ a b, Instr.nop ≠ .rsdec a b := by
  refine ⟨rfl, by decide, by decide, fun _ _ => by simp⟩

/-- A busy state about to perform the word. -/
def about (s : State) (word : Word) : State := { s with busy := true, inflight := word }

/-- OnlyTheNamedMovesWrite: steps without a reset in which F_OK (RSCHIEN), ERRCOUNT (RSDEC), READY (BUILD) and a scalar
register change, and one that polls the last command. -/
theorem test_witness_only_moves :
    (about w 0x44510000).agenda = [] ∧
    (after (step (about { w with fOk := true } 0x44520000))).fOk ≠ true ∧
    (after (step (about { w with errcount := 7 } 0x46010000))).errcount ≠ 7 ∧
    (after (step (about State.reset 0x02000000))).ready ≠ State.reset.ready ∧
    (after (step (about w 0x10100007))).readS 1 ≠ w.readS 1 ∧
    (after (step { w with agenda := [.access (.write .word 0x044 7)] })).readS 1 ≠ w.readS 1 ∧
    (after (step { w with unpolled := true, agenda := [.access (.read .word 0x008)] })).unpolled = false := by
  decide +kernel

/-- UnbuiltEngineRaisesNotReady: a well-formed RSDEC after reset. -/
theorem test_witness_unbuilt :
    Instr.wf (.rsdec 7 0) = true ∧ requiresReady (.rsdec 7 0) = true ∧ State.reset.ready = false := by decide

/-- GF(4) and GF(2) are valid configurations; the statements over every built field start here. -/
theorem test_witness_config : ConfigIsValid 2 7 0 ∧ ConfigIsValid 2 7 1 ∧ ConfigIsValid 1 3 0 := by
  refine ⟨⟨by decide, by decide, by decide, by decide, ?_, by decide⟩, ⟨by decide, by decide, by decide, by decide, ?_,
    by decide⟩, ⟨by decide, by decide, by decide, by decide, ?_, by decide⟩⟩ <;> intro i j hi hj <;>
    norm_num at hi hj <;> try (interval_cases i <;> interval_cases j <;> decide)
  omega

/-- BuildAcceptsExactlyValidConfigurations: a staged valid configuration and an invalid one (m = 0). -/
theorem test_witness_build :
    ConfigIsValid w.cfgM.toNat w.cfgPoly.toNat w.cfgBase.toNat ∧
    ¬ ConfigIsValid { w with cfgM := 0 }.cfgM.toNat w.cfgPoly.toNat w.cfgBase.toNat :=
  ⟨test_witness_config.1, fun h => absurd h.1.1 (by decide)⟩

/-- BuildTablesArePowersAndLogarithms: the least and the greatest index and element of GF(4). -/
theorem test_witness_tables : (1 ≤ 1 ∧ 1 < 2 ^ 2 - 1) ∧ (0 < 2 ^ 2 - 1 ∧ 2 < 2 ^ 2 - 1) ∧ (1 ≤ 3 ∧ 3 ≤ 2 ^ 2 - 1) := by
  decide

/-- FieldLawsHoldInEveryBuiltField and GmulIsTheReducedCarrylessProduct: elements 0 and 3 of GF(4). -/
theorem test_witness_field : ConfigIsValid 2 7 0 ∧ (0 : Elem).toNat < 2 ^ 2 ∧ (3 : Elem).toNat < 2 ^ 2 ∧ (3 : Elem) ≠ 0 :=
  ⟨test_witness_config.1, by decide, by decide, by decide⟩

/-- Field scalar commands: sources in range (3 = 2^M − 1), out of range (4 = 2^M), zero and nonzero. -/
theorem test_witness_scalar :
    w.ready = true ∧ w.elemS 3 ∧ w.elemS 1 ∧ ¬ (w.elemS 4 ∧ w.elemS 1) ∧ ¬ w.elemS 4 ∧ w.readS 3 ≠ 0 ∧ w.elemS 0 ∧
    w.readS 0 = 0 := by decide +kernel

/-- GetAndPutElement, LengthReadAndSet, CopyReverseAndStrip: an index below the length, and one equal to it. -/
theorem test_witness_index : (w.readS 1).toNat < (w.readP 0).length ∧ (w.readP 0).length ≤ (w.readS 2).toNat ∧
    (3 < (w.readS 4).toNat ∧ 0 < (w.readS 4).toNat) := by decide +kernel

/-- EvaluationCommandResults and ScaledAddCommandResult: operands in range, a polynomial and a scalar out of range. -/
theorem test_witness_evaluation :
    w.ready = true ∧ w.elemsP 0 ∧ w.elemsP 1 ∧ w.elemS 3 ∧ w.elemS 2 ∧ ¬ (w.elemsP 4 ∧ w.elemS 3) ∧
    ¬ (w.elemsP 0 ∧ w.elemS 3 ∧ w.elemS 4) ∧ ¬ (w.elemS 4 ∧ w.elemsP 0 ∧ w.elemsP 1) := by
  simp only [below_iff_all]; decide +kernel

/-- EvaluationIsTheSumOfTerms and EvaluationIsARingHomomorphism: sequences over GF(4), and a division that answers. -/
theorem test_witness_sequences :
    ConfigIsValid 2 7 0 ∧ (∀ y ∈ ([1, 2, 3] : Poly), y.toNat < 2 ^ 2) ∧ (∀ y ∈ ([3, 1] : Poly), y.toNat < 2 ^ 2) ∧
    ([3, 1] : Poly).length ≤ ([1, 2, 3] : Poly).length ∧ ([1, 2, 3] : Poly) ≠ [] ∧
    ∃ qr, pdivmod (builtGf 2 7) [1, 2, 3] [3, 1] = .ok qr :=
  ⟨test_witness_config.1, by simp, by simp, by decide, by decide, _, rfl⟩

/-- A state whose P0 and P1 are long: PMUL at PCAP + 1 (fits), and above it. -/
theorem test_witness_pmul_length :
    (((w.writeP 0 (List.replicate 65536 0)).readP 0).length + (w.readP 1).length ≤ 65537) ∧
    (65537 < ((w.writeP 0 (List.replicate 65536 0)).readP 0).length + (w.readP 0).length) := by decide +kernel

/-- MultiplyCommandResult: operands in range, and one out of range. -/
theorem test_witness_pmul : (w.readP 0).length + (w.readP 1).length ≤ 65537 ∧ w.elemsP 0 ∧ w.elemsP 1 ∧
    ¬ (w.elemsP 0 ∧ w.elemsP 4) := by
  simp only [below_iff_all]; decide +kernel

/-- ProductCoefficientsAreConvolutionSums: an empty and two non-empty operands. -/
theorem test_witness_product : (w.readP 2 = [] ∨ w.readP 0 = []) ∧ w.readP 0 ≠ [] ∧ w.readP 1 ≠ [] := by decide +kernel

/-- DivideCommandResult: a legal denominator, a short numerator, an empty one and one that starts with 0, an operand out of
range, and equal destinations. -/
theorem test_witness_divide :
    (5 : PReg) ≠ 6 ∧ w.elemsP 0 ∧ w.elemsP 1 ∧ w.readP 1 ≠ [] ∧ (w.readP 1).head? ≠ some 0 ∧
    (w.readP 1).length < (w.readP 0).length ∧ (w.readP 2 = [] ∨ (w.readP 2).head? = some 0) ∧
    (w.readP 3 = [] ∨ (w.readP 3).head? = some 0) ∧ ¬ (w.elemsP 4 ∧ w.elemsP 1) ∧ (5 : PReg) = 5 := by
  simp only [below_iff_all]; decide +kernel

/-- NumeratorIsQuotientTimesDenominatorPlusRemainder: a quotient and a remainder in GF(4). -/
theorem test_witness_numerator : ∃ q r, pdivmod (builtGf 2 7) [1, 2, 3] [3, 1] = .ok (q, r) := ⟨_, _, rfl⟩

/-- GeneratorCommandResult: the degree Q = 3, and 4. -/
theorem test_witness_rsgen : (w.readS 3).toNat ≤ 2 ^ w.mAct.toNat - 1 ∧ 2 ^ w.mAct.toNat - 1 < (w.readS 4).toNat := by
  decide +kernel

/-- GeneratorIsMonicWithTheNamedRoots: a root index below the degree. -/
theorem test_witness_generator : ConfigIsValid 2 7 0 ∧ 2 < 3 := ⟨test_witness_config.1, by decide⟩

/-- EncodeCommandResult: N = Q, no generator, N above Q, and a message out of range. -/
theorem test_witness_rsenc :
    w.Inv ∧ w.ready = true ∧ w.gvalid = true ∧ (w.readP 0).length + w.gdeg.toNat = 2 ^ w.mAct.toNat - 1 ∧ w.elemsP 0 ∧
    (built 2 7).gvalid = false ∧ 2 ^ w2.mAct.toNat - 1 < (w2.readP 0).length + w2.gdeg.toNat ∧ ¬ w.elemsP 4 :=
  ⟨test_witness_inv.1, by (simp only [below_iff_all]; decide +kernel)⟩

theorem test_witness_built_inv : (built 2 7).Inv := by constructor <;> decide +kernel

/-- EncodedBlockHasZeroSyndromes: a message that encodes. -/
theorem test_witness_encoded : ∃ ecc, enc (builtGf 2 7) (gen (builtGf 2 7) 1 0) [1, 2] = .ok ecc := ⟨_, rfl⟩

/-- SyndromeCommandResult and DecodeCommandResult, P0 the message and P1 the ECC: N = Q and the lengths match; a mismatch; N
above Q; elements out of range. -/
theorem test_witness_syndrome :
    w.ready = true ∧ w.gvalid = true ∧ (w.readP 1).length = w.gdeg.toNat ∧
    (w.readP 0).length + (w.readP 1).length = 2 ^ w.mAct.toNat - 1 ∧ w.elemsP 0 ∧ w.elemsP 1 ∧
    (w.readP 2).length ≠ w.gdeg.toNat ∧ (w2.readP 0).length = w2.gdeg.toNat ∧
    2 ^ w2.mAct.toNat - 1 < (w2.readP 0).length + (w2.readP 0).length ∧ (w.readP 4).length = w.gdeg.toNat ∧
    ¬ (w.elemsP 0 ∧ w.elemsP 4) := by
  simp only [below_iff_all]; decide +kernel

/-- DecodeCommandResult: root counts that hold. -/
theorem test_witness_decode :
    w.Inv ∧ w2.Inv ∧
    (let S := syn w.gf (w.readP 0) (w.readP 1) 1 0; (chien w.gf (bm w.gf S) 3).2 = true) ∧
    (let S := syn w2.gf [] (w2.readP 3) 2 0; (chien w2.gf (bm w2.gf S) 2).2 = true) :=
  ⟨test_witness_inv.1, test_witness_inv.2.1, by decide +kernel⟩

/-- V6.5's block: three errors in a code of degree 4. -/
def threeErrors : State := (m8g.writeP 0 [0, 3, 2, 4, 5, 6, 7, 8]).writeP 1 [69, 83, 235, 245]

/-- DecodeCommandResult: a root count that fails. -/
theorem test_witness_decode_fails :
    threeErrors.Inv ∧ threeErrors.ready = true ∧ threeErrors.gvalid = true ∧ (threeErrors.readP 1).length = 4 ∧
    (chien m8g.gf (bm m8g.gf (syn m8g.gf (threeErrors.readP 0) (threeErrors.readP 1) 4 0)) 12).2 = false := by
  refine ⟨?_, by decide +kernel⟩
  constructor <;> decide +kernel

/-- LocatorCommandResult: syndromes below PCAP in range, at PCAP, and out of range. -/
theorem test_witness_locator : (w.readP 0).length < 65536 ∧ w.elemsP 0 ∧ ¬ w.elemsP 4 ∧
    65536 ≤ ((w.writeP 0 (List.replicate 65536 0)).readP 0).length := by
  simp only [below_iff_all]; decide +kernel

/-- LocatorGeneratesTheSyndromes: L ≤ n below the number of syndromes. -/
theorem test_witness_recurrence : (bmRun (builtGf 2 7) [1, 2]).l ≤ 1 ∧ 1 < ([1, 2] : Poly).length := by decide +kernel

/-- RootSearchCommandResult and RootSearchFindsExactlyTheRoots: N = Q, N = Q + 1, a locator out of range. -/
theorem test_witness_root_search : (w.readS 3).toNat = 2 ^ w.mAct.toNat - 1 ∧ w.elemsP 3 ∧
    2 ^ w.mAct.toNat - 1 < (w.readS 4).toNat ∧ ¬ w.elemsP 4 ∧ (3 : Nat) ≤ 65536 := by
  simp only [below_iff_all]; decide +kernel

/-- ForneyCommandResult, message P0, syndromes P1, locator P3, locations P5: distinct and repeated locations below N, an
empty locator, N above Q, and a location equal to N. -/
theorem test_witness_forney :
    w.Inv ∧ w.ready = true ∧ (w.readP 0).length + (w.readP 1).length ≤ 2 ^ w.mAct.toNat - 1 ∧ w.readP 3 ≠ [] ∧
    (w.elemsP 0 ∧ w.elemsP 1 ∧ w.elemsP 3 ∧ ∀ x ∈ (w.writeP 5 [2, 0]).readP 5, x.toNat < 3) ∧
    ((w.writeP 5 [2, 0]).readP 5).Nodup ∧ ¬ ((w.writeP 5 [2, 2]).readP 5).Nodup ∧ w.readP 2 = [] ∧
    2 ^ w.mAct.toNat - 1 < (w.readP 0).length + (w.readP 0).length ∧
    ¬ (∀ x ∈ (w.writeP 5 [3]).readP 5, x.toNat < 3) := ⟨test_witness_inv.1, by (simp only [below_iff_all]; decide +kernel)⟩

theorem test_witness_forney_inv : (w.writeP 5 [2, 0]).Inv ∧ (w.writeP 5 [2, 2]).Inv ∧ (w.writeP 5 [3]).Inv := by
  refine ⟨?_, ?_, ?_⟩ <;> constructor <;> decide +kernel

/-- ForneyAppliesTheMagnitudes: a call that answers, with a message place, an ECC place, and a place not named. -/
theorem test_witness_magnitudes :
    ([2, 0] : Poly).Nodup ∧ (∃ out, forney w.gf [1, 2] [3] [0, 1] [2, 0] 0 = .ok out) ∧ (0 < ([2, 0] : Poly).length) ∧
    (∀ x ∈ ([2, 0] : Poly), x.toNat ≠ 1) := ⟨by decide, ⟨_, rfl⟩, by decide, by simp⟩

/-- EncodeThenDecodeRoundTrip and DecodeCorrectsEverySingleError: messages with N = Q, and the first and last error
places. -/
theorem test_witness_round_trip :
    w2.Inv ∧ w2.ready = true ∧ w2.gvalid = true ∧ (1 : PReg) ≠ 5 ∧ w2.elemsP 1 ∧
    (w2.readP 1).length + w2.gdeg.toNat = 2 ^ w2.mAct.toNat - 1 ∧ 2 ≤ w2.gdeg.toNat ∧
    0 < (w2.readP 1).length + w2.gdeg.toNat ∧ 2 < (w2.readP 1).length + w2.gdeg.toNat ∧ (3 : Elem) ≠ 0 ∧
    (3 : Elem).toNat < 2 ^ w2.mAct.toNat := ⟨test_witness_inv.2.1, by (simp only [below_iff_all]; decide +kernel)⟩

/-- DecodeCorrectsEverySingleError on each place of a block of GF(4). -/
theorem test_single_error :
    (run (.rsdec 1 5) ((run (.rsenc 5 1) w2).writeP 1 [0])).readP 1 = [3] ∧
    (run (.rsdec 1 5) ((run (.rsenc 5 1) w2).writeP 1 [0])).errcount = 1 := by decide +kernel

/-- The host statements: an idle state with no move left, and a busy one. -/
theorem test_witness_host : w.busy = false ∧ w.agenda = [] ∧ (about w 0x01000000).busy = true := by decide +kernel

/-- CtrlWriteEnablesOrResets: bit 1 clear and set. -/
theorem test_witness_ctrl : (1 : Word).getLsbD 1 = false ∧ (3 : Word).getLsbD 1 = true := by decide

/-- ScalarAndLengthRegisterAccesses: a length of PCAP and one of PCAP + 1, and a place below it. -/
theorem test_witness_plen : (0x10000 : Word).toNat % 2 ^ 17 ≤ 65536 ∧ 65536 < (0x10001 : Word).toNat % 2 ^ 17 ∧
    0 < (0x10000 : Word).toNat % 2 ^ 17 := by decide

/-- PolynomialWindowAccesses and TableAndGeneratorWindowAccesses: the last place of a register, its length, the last index. -/
theorem test_witness_windows : w.busy = false ∧ 1 < (w.readP 0).length ∧ (w.readP 0).length ≤ 2 ∧ 65535 < 65536 := by
  decide +kernel

/-- AccessErrorsOnlySetAccerr and BusyAccessesAreRefusedOrUnspecified: an access of each kind. -/
theorem test_witness_access_kinds :
    AccessSize.byte ≠ .word ∧ (0x002 : Addr).toNat % 4 ≠ 0 ∧ (0x034 ≤ (0x034 : Addr).toNat ∧ (0x034 : Addr).toNat < 0x040) ∧
    (0x0A0 ≤ (0x03FFFC : Addr).toNat ∧ (0x03FFFC : Addr).toNat < 0x040000) ∧ 0x300000 ≤ (0xFFFFFC : Addr).toNat ∧
    (0x030 : Addr).toNat = 0x030 ∧ (0x010 : Addr).toNat % 4 = 0 ∧ (0x010 : Addr).toNat ≠ 0x030 := by decide

/-- ReadsHaveNoSideEffect: an idle state and a word read of a fixed register. -/
theorem test_witness_read : w.busy = false ∧ (0x030 : Addr).toNat % 4 = 0 ∧ (0x030 : Addr).toNat < 0x034 := by decide +kernel

/-- HostCannotDisturbACommandInExecution: a busy state, host accesses that do not reset, and the two completions. -/
theorem test_witness_host_accesses :
    (about w 0x01000000).busy = true ∧
    (∀ a ∈ [Access.write .word 0x004 1, .write .word 0x008 0xFF, .read .word 0x040], a.softResets = false) ∧
    exec .nop (about w 0x01000000) = .next (run .nop (about w 0x01000000)) := ⟨rfl, by decide, rfl⟩

end Sys2Proof.Tests
end

namespace Sys2Proof.Machine

/-- Settles O4, from the read-after-write rules of the two register files (R10, R21, R25). -/
theorem registerFilesReadWhatWasWritten : Obligations.RegisterFilesReadWhatWasWritten := by
  unfold Obligations.RegisterFilesReadWhatWasWritten
  constructor
  · intro s r q v
    exact ⟨readS_zero s, writeS_zero s v, readS_writeS_self s v, readS_writeS_ne s v, readP_writeS s r v⟩
  · intro s k j t
    exact ⟨readP_writeP_self s k t, readP_writeP_ne s t, readS_writeP s k t⟩

end Sys2Proof.Machine

/-! ## Lengths of command results (R25) -/

namespace Sys2Proof.Machine

theorem pmul_length_le (F : Gf) (a b : Poly) : (pmul F a b).length ≤ a.length + b.length - 1 := by
  rcases eq_or_ne a [] with rfl | ha
  · simp
  rcases eq_or_ne b [] with rfl | hb
  · simp
  exact (pmul_length F a b ha hb).le

/-- A division that succeeds has a nonempty denominator and results of the lengths of R204. -/
theorem pdivmod_ok_length {F : Gf} {a b q r : Poly} (h : pdivmod F a b = .ok (q, r)) :
    b ≠ [] ∧ q.length = a.length + 1 - b.length ∧ r.length = b.length - 1 := by
  rcases pdivmod_cases F a b with ⟨-, hp⟩ | ⟨q', r', hb, -, hp, hr, hq⟩
  · simp [hp] at h
  · obtain ⟨rfl, rfl⟩ : q' = q ∧ r' = r := by simpa [hp] using h
    exact ⟨hb, hq, hr⟩

/-- One pass of R252's loop for index n keeps L at most one above n. -/
theorem bmStep_l_le (F : Gf) (S : Poly) {st : BmState} {n : Nat} (h : st.l ≤ n) : (bmStep F S st n).l ≤ n + 1 := by
  unfold bmStep
  dsimp only
  split_ifs <;> dsimp only <;> omega

theorem bmRun_l_le (F : Gf) (S : Poly) : (bmRun F S).l ≤ S.length := by
  have passes : ∀ n, ((List.range n).foldl (bmStep F S) bmInit).l ≤ n := by
    intro n
    induction n with
    | zero => exact le_rfl
    | succ n ih =>
      rw [List.range_succ, List.foldl_append]
      exact bmStep_l_le F S ih
  exact passes S.length

theorem bm_length_le (F : Gf) (S : Poly) : (bm F S).length ≤ S.length + 1 := by
  have hstrip : (bm F S).length ≤ (bmRun F S).l + 1 :=
    (strip_length_le _).trans (by simp)
  have := bmRun_l_le F S
  omega

/-! ## The states that a successful command can leave (R13, R15) -/

/-- What a command may leave when its rule succeeds, by what it writes: the one place where the commands are told apart, so
that frames and invariants need a case per kind of write and not one per command. A polynomial result is no longer than
PCAP when the registers it is made from are not (R25). -/
inductive Effect (s : State) : Instr → State → Prop
  | nop : Effect s .nop s
  | build (hv : validConfig s.cfgM.toNat s.cfgPoly.toNat s.cfgBase.toNat = true) : Effect s .build (latchConfig s)
  | scalar {i : Instr} {rd : SReg} (v : Elem) (hd : scalarDest i = some rd) : Effect s i (s.writeS rd v)
  | poly {i : Instr} {pd : PReg} (p : Poly) (hd : polyDests i = [pd]) (hl : s.Inv → p.length ≤ Config.pcap) :
      Effect s i (s.writeP pd p)
  | divide {pd pa pb pc : PReg} (q r : Poly) (hq : s.Inv → q.length ≤ Config.pcap)
      (hr : s.Inv → r.length ≤ Config.pcap) : Effect s (.pdiv pd pa pb pc) ((s.writeP pc q).writeP pd r)
  | generator (a : SReg) (hready : s.ready = true) (hd : (s.readS a).toNat ≤ s.q) : Effect s (.rsgen a)
      { s with gpoly := gen s.gf (s.readS a).toNat s.b, gdeg := s.readS a, gvalid := true }
  | search {pd pa : PReg} {b : SReg} (p : Poly) (ok : Bool) (hl : p.length ≤ Config.pcap) :
      Effect s (.rschien pd pa b) { s.writeP pd p with fOk := ok }
  | decode {pd pa : PReg} (p : Poly) (ok : Bool) (n : BitVec 16) (hl : s.Inv → p.length ≤ Config.pcap) :
      Effect s (.rsdec pd pa) { s.writeP pd p with fOk := ok, errcount := n }

/-- A 16-bit value is a length that a polynomial register can have. -/
theorem toNat_le_pcap (v : BitVec 16) : v.toNat ≤ Config.pcap := v.isLt.le

/-- A command whose rule succeeds has one of the effects listed. -/
theorem effect_of_rule {i : Instr} {s t : State} (h : rule i s = .ok t) : Effect s i t := by
  cases i with
  | nop => cases h; exact .nop
  | build => obtain ⟨hv, rfl⟩ := ruleBuild_ok.1 h; exact .build hv
  | li rd imm => cases h; exact .scalar imm rfl
  | gadd rd a b => obtain ⟨-, -, rfl⟩ := ruleGadd_ok.1 h; exact .scalar _ rfl
  | gmul rd a b => obtain ⟨-, -, rfl⟩ := ruleGmul_ok.1 h; exact .scalar _ rfl
  | gdiv rd a b => obtain ⟨-, -, -, rfl⟩ := ruleGdiv_ok.1 h; exact .scalar _ rfl
  | ginv rd a => obtain ⟨-, -, -, rfl⟩ := ruleGinv_ok.1 h; exact .scalar _ rfl
  | gpow rd a b => obtain ⟨-, -, rfl⟩ := ruleGpow_ok.1 h; exact .scalar _ rfl
  | gexp rd a => obtain ⟨-, rfl⟩ := ruleGexp_ok.1 h; exact .scalar _ rfl
  | glog rd a => obtain ⟨-, -, -, rfl⟩ := ruleGlog_ok.1 h; exact .scalar _ rfl
  | pget rd pa b => obtain ⟨-, rfl⟩ := rulePget_ok.1 h; exact .scalar _ rfl
  | pput pd a b =>
    obtain ⟨-, rfl⟩ := rulePput_ok.1 h
    exact .poly _ rfl fun hs => by simpa using hs.lengths pd
  | plen rd pa => cases h; exact .scalar _ rfl
  | psetlen pd a =>
    obtain ⟨hn, rfl⟩ := rulePsetlen_ok.1 h
    exact .poly _ rfl fun _ => by simpa using hn
  | pmov pd pa => cases h; exact .poly _ rfl fun hs => hs.lengths pa
  | prev pd pa => cases h; exact .poly _ rfl fun hs => by simpa using hs.lengths pa
  | pstrip pd pa => cases h; exact .poly _ rfl fun hs => (strip_length_le _).trans (hs.lengths pa)
  | peval rd pa b => obtain ⟨-, -, rfl⟩ := rulePeval_ok.1 h; exact .scalar _ rfl
  | pevala rd pa b => obtain ⟨-, -, rfl⟩ := rulePevala_ok.1 h; exact .scalar _ rfl
  | pevalc rd pa b c => obtain ⟨-, -, rfl⟩ := rulePevalc_ok.1 h; exact .scalar _ rfl
  | pmul pd pa pb =>
    obtain ⟨-, hn, -, rfl⟩ := rulePmul_ok.1 h
    refine .poly _ rfl fun _ => (pmul_length_le _ _ _).trans ?_
    unfold State.lenP at hn
    omega
  | pdiv pd pa pb pc =>
    obtain ⟨-, -, -, q, r, hqr, rfl⟩ := rulePdiv_ok.1 h
    obtain ⟨hb, hq, hr⟩ := pdivmod_ok_length hqr
    have hpos : 0 < (s.readP pb).length := List.length_pos_of_ne_nil hb
    refine .divide q r (fun hs => ?_) fun hs => ?_
    · have := hs.lengths pa
      omega
    · have := hs.lengths pb
      omega
  | paddsb pd pa pb c =>
    obtain ⟨-, -, rfl⟩ := rulePaddsb_ok.1 h
    exact .poly _ rfl fun hs => by simpa using And.intro (hs.lengths pa) (hs.lengths pb)
  | rsgen a => obtain ⟨hready, hd, rfl⟩ := ruleRsgen_ok.1 h; exact .generator a hready hd
  | rsenc pd pa =>
    obtain ⟨-, hg, -, -, e, he, rfl⟩ := ruleRsenc_ok.1 h
    refine .poly e rfl fun hs => ?_
    obtain ⟨-, hlen, -⟩ := hs.isGen hg
    have := toNat_le_pcap s.gdeg
    rw [enc_length _ he]
    omega
  | rssyn pd pa pb =>
    obtain ⟨-, -, -, -, -, rfl⟩ := ruleRssyn_ok.1 h
    exact .poly _ rfl fun _ => by simpa using toNat_le_pcap s.gdeg
  | rsbm pd pa =>
    obtain ⟨-, hn, -, rfl⟩ := ruleRsbm_ok.1 h
    exact .poly _ rfl fun _ => (bm_length_le _ _).trans hn
  | rschien pd pa b =>
    obtain ⟨-, -, -, rfl⟩ := ruleRschien_ok.1 h
    exact .search _ _ ((chienLocs_length_le _ _ _).trans (toNat_le_pcap (s.readS b)))
  | rsforney pd pa pb pc =>
    obtain ⟨-, -, -, -, -, out, ho, rfl⟩ := ruleRsforney_ok.1 h
    exact .poly out rfl fun hs => (forney_length _ ho).le.trans (hs.lengths pd)
  | rsdec pd pa =>
    obtain ⟨-, -, -, -, -, out, ok, cnt, ho, rfl⟩ := ruleRsdec_ok.1 h
    exact .decode out ok _ fun hs => (dec_length _ ho).le.trans (hs.lengths pd)

/-- Every command ends in one of its effects or in a recorded error, and then completes (R280). -/
theorem exec_cases {i : Instr} {s t : State} (h : exec i s = .next t) :
    (∃ u, Effect s i u ∧ t = u.finish) ∨ ∃ e, t = (s.recordError e s.inflight).finish := by
  rw [exec_eq] at h
  cases h
  rcases complete_cases s (rule i s) with ⟨u, hu, hc⟩ | ⟨e, -, hc⟩
  · exact .inl ⟨u, effect_of_rule hu, hc⟩
  · exact .inr ⟨e, hc⟩

/-! ## The invariant under the state's updates -/

/-- The fields that the invariant speaks of. -/
def State.core (s : State) :=
  (s.sregs, s.pregs, (s.gpoly, s.gvalid, s.gdeg), (s.ready, s.mAct, s.polyAct, s.baseAct), (s.expTable, s.logTable),
    (s.err, s.errcode, s.errcmd))

/-- An update of the other fields keeps the invariant. -/
theorem State.Inv.of_core_eq {s t : State} (hs : s.Inv) (h : t.core = s.core) : t.Inv := by
  cases s
  cases t
  simp only [State.core, Prod.mk.injEq] at h
  obtain ⟨rfl, rfl, ⟨rfl, rfl, rfl⟩, ⟨rfl, rfl, rfl, rfl⟩, ⟨rfl, rfl⟩, rfl, rfl, rfl⟩ := h
  exact { hs with }

theorem inv_finish {s : State} (hs : s.Inv) : s.finish.Inv := hs.of_core_eq rfl
theorem inv_accessError {s : State} (hs : s.Inv) : s.accessError.Inv := hs.of_core_eq rfl
theorem inv_issue {s : State} (hs : s.Inv) (w : Word) : (s.issue w).Inv := hs.of_core_eq rfl

theorem inv_writeS {s : State} (hs : s.Inv) (r : SReg) (v : Elem) : (s.writeS r v).Inv where
  __ := hs
  s0 := by
    have h0 := hs.s0
    by_cases hr : r = 0
    · simpa [hr] using h0
    · have : r.val ≠ 0 := fun e => hr (Fin.ext e)
      simpa [hr, this] using h0

theorem inv_writeP {s : State} (hs : s.Inv) (k : PReg) {p : Poly} (hp : p.length ≤ Config.pcap) :
    (s.writeP k p).Inv where
  __ := hs
  lengths j := by
    rw [readP_writeP]
    split
    · exact hp
    · exact hs.lengths j

theorem errCode_code_range (e : ErrCode) : 1 ≤ e.code.toNat ∧ e.code.toNat ≤ 9 := by cases e <;> decide

theorem inv_recordError {s : State} (hs : s.Inv) (e : ErrCode) (w : Word) : (s.recordError e w).Inv where
  __ := hs
  noErr h := by simp at h
  isErr _ := by
    rw [State.recordError_errcode]
    split
    · exact hs.isErr ‹_›
    · exact errCode_code_range e

/-- A STATUS write clears ERRCODE and ERRCMD exactly when it clears ERR (R284). -/
theorem inv_writeStatus {s : State} (hs : s.Inv) (v : Word) : (s.writeStatus v).Inv where
  __ := hs
  noErr h := by
    rw [State.writeStatus_errcode, State.writeStatus_errcmd]
    rw [State.writeStatus_err] at h
    cases hv : v.getLsbD 3 with
    | true => exact ⟨rfl, rfl⟩
    | false => exact hs.noErr (by simpa only [hv, Bool.not_false, Bool.and_true] using h)
  isErr h := by
    rw [State.writeStatus_err, Bool.and_eq_true, Bool.not_eq_true'] at h
    obtain ⟨he, hv⟩ := h
    rw [State.writeStatus_errcode, hv]
    exact hs.isErr he

/-- BUILD's check makes the latched BASE bit the whole of CFG_BASE (R121, R122(c)). -/
theorem validConfig_setWidth_base {m p : Nat} {b : BitVec 2} (h : validConfig m p b.toNat = true) :
    (b.setWidth 1).toNat = b.toNat := by
  have hb : b.toNat ≤ 1 := by
    simp only [validConfig, Bool.and_eq_true, decide_eq_true_eq] at h
    obtain ⟨⟨-, hb⟩, -⟩ := h
    exact hb
  rw [BitVec.toNat_setWidth]
  omega

theorem inv_latchConfig {s : State} (hs : s.Inv)
    (hv : validConfig s.cfgM.toNat s.cfgPoly.toNat s.cfgBase.toNat = true) : (latchConfig s).Inv where
  __ := hs
  notReady h := by simp at h
  isReady _ := ⟨by simpa [validConfig_setWidth_base hv] using hv, gf_latchConfig s⟩
  noGen _ := ⟨rfl, rfl⟩
  isGen h := by simp at h

/-- RSGEN's writes make the generator of degree GDEG (R232). -/
theorem inv_generator {s : State} (hs : s.Inv) {d : Elem} (hready : s.ready = true) (hd : d.toNat ≤ s.q) :
    State.Inv { s with gpoly := gen s.gf d.toNat s.b, gdeg := d, gvalid := true } where
  __ := hs
  notReady h := absurd (hready.symm.trans h) (by decide)
  noGen h := nomatch h
  isGen _ := ⟨hd, gen_length _ _ _, rfl⟩

/-- Settles O2: in State.reset everything is 0, empty or absent. -/
theorem resetMeetsTheInvariant : Obligations.ResetMeetsTheInvariant where
  s0 := rfl
  lengths k := by simp [State.readP, State.reset]
  notReady _ := ⟨rfl, rfl, rfl, rfl, rfl, rfl⟩
  isReady h := absurd h (by decide)
  noGen _ := ⟨rfl, rfl⟩
  isGen h := absurd h (by decide)
  noErr _ := ⟨rfl, rfl⟩
  isErr h := absurd h (by decide)

/-- After a reset of any state the invariant holds (R45, R321). -/
theorem inv_resetEngine (s : State) : s.resetEngine.Inv := resetMeetsTheInvariant.of_core_eq rfl

/-! ## The invariant under the moves of R328 -/

theorem inv_effect {i : Instr} {s t : State} (hs : s.Inv) (h : Effect s i t) : t.Inv := by
  cases h with
  | nop => exact hs
  | build hv => exact inv_latchConfig hs hv
  | scalar v => exact inv_writeS hs _ v
  | poly p _ hl => exact inv_writeP hs _ (hl hs)
  | divide q r hq hr => exact inv_writeP (inv_writeP hs _ (hq hs)) _ (hr hs)
  | generator a hready hd => exact inv_generator hs hready hd
  | search p ok hl => exact (inv_writeP hs _ hl).of_core_eq rfl
  | decode p ok n hl => exact (inv_writeP hs _ (hl hs)).of_core_eq rfl

/-- A completed command, its rule's or an illegal word's, keeps the invariant. -/
theorem inv_complete {s : State} (hs : s.Inv) (r : Except ErrCode State) (hr : ∀ t, r = .ok t → t.Inv) :
    (complete s r).Inv := by
  rcases complete_cases s r with ⟨t, ht, hc⟩ | ⟨e, -, hc⟩ <;> rw [hc]
  · exact inv_finish (hr t ht)
  · exact inv_finish (inv_recordError hs e _)

theorem inv_writeCtrl {s : State} (hs : s.Inv) (v : Word) : (s.writeCtrl v).Inv := by
  rcases writeCtrl_cases s v with ⟨-, h⟩ | ⟨-, h⟩ <;> rw [h]
  · exact inv_resetEngine s
  · exact hs.of_core_eq rfl

theorem inv_writePlen {s : State} (hs : s.Inv) (k : PReg) (v : Word) : (s.writePlen k v).Inv := by
  rcases writePlen_cases s k v with ⟨hn, h⟩ | ⟨-, h⟩ <;> rw [h]
  · exact inv_writeP hs k (by simpa using hn)
  · exact inv_accessError hs

theorem inv_writePWin {s : State} (hs : s.Inv) (k : PReg) (i : Nat) (v : Word) : (s.writePWin k i v).Inv := by
  rcases writePWin_cases s k i v with ⟨-, h⟩ | ⟨-, h⟩ <;> rw [h]
  · exact inv_writeP hs k (by simpa using hs.lengths k)
  · exact inv_accessError hs

theorem inv_writeIdle {s : State} (hs : s.Inv) (t : Target) (v : Word) : (s.writeIdle t v).Inv := by
  cases t with
  | ctrl => exact inv_writeCtrl hs v
  | status => exact inv_writeStatus hs v
  | cmd => exact inv_issue hs v
  | cfgM | cfgPoly | cfgBase => exact hs.of_core_eq rfl
  | sreg i => exact inv_writeS hs i _
  | plen k => exact inv_writePlen hs k v
  | pWin k i => exact inv_writePWin hs k i v
  | id | actCfg | actPoly | errcmd | errcount | gdeg | cap | reserved | expWin | logWin | gWin =>
    exact inv_accessError hs

theorem inv_access {s : State} (hs : s.Inv) (a : Access) : (s.access a).Inv := by
  cases a with
  | read size addr =>
    obtain ⟨_, _, _, _, h⟩ := access_read_frame s size addr
    rw [h]
    exact hs.of_core_eq rfl
  | write size addr v =>
    rcases access_write_cases s size addr v with h | ⟨-, ⟨-, h⟩ | ⟨-, h⟩ | ⟨-, h⟩⟩ <;> rw [h]
    · exact inv_accessError hs
    · exact inv_writeCtrl hs v
    · exact inv_writeStatus hs v
    · exact inv_writeIdle hs _ v

/-- Settles O3: the three kinds of move keep the invariant: a command by the kinds of write it can make (Effect), an access,
and a reset. -/
theorem everyStepKeepsTheInvariant : Obligations.EveryStepKeepsTheInvariant := by
  intro s t hs h
  rcases step_cases s t h with ⟨u, hu, hturn⟩ | ⟨a, rest, -, rfl⟩ | ⟨rest, -, rfl⟩
  · have hui : u.Inv := by
      rcases hu with rfl | ⟨_, _, -, rfl⟩
      · exact hs
      · exact hs.of_core_eq rfl
    rcases hturn with ⟨-, rfl⟩ | ⟨-, r, rfl, ⟨i, -, rfl⟩ | ⟨-, rfl⟩⟩
    · exact hui
    · exact inv_complete hui _ fun _ hr => inv_effect hui (effect_of_rule hr)
    · exact inv_complete hui _ fun _ hr => nomatch hr
  · exact inv_access (s := { s with agenda := rest }) (hs.of_core_eq rfl) a
  · exact inv_resetEngine _

end Sys2Proof.Machine

/-! ## The frame of the commands (R22, R27 to R29, R41) -/

namespace Sys2Proof.Machine

section
variable {i : Instr} {s t : State}

theorem effect_readS (h : Effect s i t) {r : SReg} (hr : scalarDest i ≠ some r) : t.readS r = s.readS r := by
  cases h with
  | scalar v hd => exact readS_writeS_ne s v fun e => hr (e ▸ hd)
  | nop | build | poly | divide | generator | search | decode => rfl

theorem effect_readP (h : Effect s i t) {k : PReg} (hk : k ∉ polyDests i) : t.readP k = s.readP k := by
  cases h with
  | poly p hd => exact readP_writeP_ne s p (by simpa [hd] using hk)
  | divide q r =>
    obtain ⟨hpd, hpc⟩ := not_or.1 (by simpa [polyDests] using hk)
    rw [readP_writeP_ne _ r hpd, readP_writeP_ne s q hpc]
  | search p => exact readP_writeP_ne s p (by simpa [polyDests] using hk)
  | decode p => exact readP_writeP_ne s p (by simpa [polyDests] using hk)
  | nop | build | scalar | generator => rfl

theorem effect_fOk (h : Effect s i t) (hc : ∀ a b c, i ≠ .rschien a b c) (hd : ∀ a b, i ≠ .rsdec a b) :
    t.fOk = s.fOk := by
  cases h with
  | search => exact absurd rfl (hc _ _ _)
  | decode => exact absurd rfl (hd _ _)
  | nop | build | scalar | poly | divide | generator => rfl

theorem effect_errcount (h : Effect s i t) (hd : ∀ a b, i ≠ .rsdec a b) : t.errcount = s.errcount := by
  cases h with
  | decode => exact absurd rfl (hd _ _)
  | nop | build | scalar | poly | divide | generator | search => rfl

theorem effect_gen (h : Effect s i t) (hg : ∀ a, i ≠ .rsgen a) (hb : i ≠ .build) :
    t.gpoly = s.gpoly ∧ t.gdeg = s.gdeg ∧ t.gvalid = s.gvalid := by
  cases h with
  | generator => exact absurd rfl (hg _)
  | build => exact absurd rfl hb
  | nop | scalar | poly | divide | search | decode => exact ⟨rfl, rfl, rfl⟩

/-- The active field: READY, the active configuration and the tables (R40, R41). -/
def State.activeField (s : State) := (s.ready, s.mAct, s.polyAct, s.baseAct, s.expTable, s.logTable)

theorem activeField_eq_iff : t.activeField = s.activeField ↔
    t.ready = s.ready ∧ t.mAct = s.mAct ∧ t.polyAct = s.polyAct ∧ t.baseAct = s.baseAct ∧ t.expTable = s.expTable ∧
      t.logTable = s.logTable := by
  simp only [State.activeField, Prod.mk.injEq]

theorem activeField_ne_iff : t.activeField ≠ s.activeField ↔
    t.ready ≠ s.ready ∨ t.mAct ≠ s.mAct ∨ t.polyAct ≠ s.polyAct ∨ t.baseAct ≠ s.baseAct ∨ t.expTable ≠ s.expTable ∨
      t.logTable ≠ s.logTable := by
  simp only [Ne, activeField_eq_iff, not_and_or]

theorem effect_activeField (h : Effect s i t) (hb : i ≠ .build) : t.activeField = s.activeField := by
  cases h with
  | build => exact absurd rfl hb
  | nop | scalar | poly | divide | generator | search | decode => rfl

/-- The fields that no command writes, DONE, BUSY and the error record apart: they belong to the host's accesses and to the
model. -/
def State.hostSide (s : State) :=
  (s.cfgM, s.cfgPoly, s.cfgBase, s.irqEn, s.accerr, s.inflight, s.agenda, s.replies, s.draws, s.unpolled)

theorem effect_hostSide (h : Effect s i t) : t.hostSide = s.hostSide := by
  cases h <;> rfl

end

/-- Settles O12: a command has one of the effects of Effect, each with its own frame, or only records an error. -/
theorem commandFrame : Obligations.CommandFrame := by
  intro i s t h
  rcases exec_cases h with ⟨u, hu, rfl⟩ | ⟨e, rfl⟩
  · have hhost := effect_hostSide hu
    simp only [State.hostSide, Prod.mk.injEq] at hhost
    exact ⟨fun _ => effect_readS hu, fun _ => effect_readP hu, effect_fOk (t := u) hu,
      effect_errcount (t := u) hu, effect_gen (t := u) hu,
      fun hb => activeField_eq_iff.1 (effect_activeField (t := u) hu hb), hhost⟩
  · exact ⟨fun _ _ => rfl, fun _ _ => rfl, fun _ _ => rfl, fun _ => rfl, fun _ _ => ⟨rfl, rfl, rfl⟩,
      fun _ => activeField_eq_iff.1 rfl, rfl, rfl, rfl, rfl, rfl, rfl, rfl, rfl, rfl, rfl⟩

/-! ## Host accesses: an equation per kind (R62, R326) -/

section
variable {s : State} {size : AccessSize} {addr : Addr}

theorem legalAccess_iff : legalAccess size addr = true ↔ size = .word ∧ addr.toNat % 4 = 0 := by simp [legalAccess]

theorem access_read_idle (hl : legalAccess size addr = true) (hb : s.busy = false) :
    s.access (.read size addr) = s.readIdle (targetOf addr) := by simp [State.access, hl, hb]

theorem access_read_busy (hl : legalAccess size addr = true) (hb : s.busy = true) :
    s.access (.read size addr) = s.readBusy (targetOf addr) := by simp [State.access, hl, hb]

theorem access_read_illegal (hl : legalAccess size addr ≠ true) :
    s.access (.read size addr) = s.accessError.reply 0 := by simp [State.access, hl]

theorem access_write_idle (hl : legalAccess size addr = true) (hb : s.busy = false) (v : Word) :
    s.access (.write size addr v) = s.writeIdle (targetOf addr) v := by simp [State.access, hl, hb]

theorem access_write_busy (hl : legalAccess size addr = true) (hb : s.busy = true) (v : Word) :
    s.access (.write size addr v) = s.writeBusy (targetOf addr) v := by simp [State.access, hl, hb]

/-- CTRL has one word offset (R30). -/
theorem addr_of_targetOf_ctrl (hl : legalAccess size addr = true) (h : targetOf addr = .ctrl) : addr = 0x004 := by
  obtain ⟨-, ha⟩ := legalAccess_iff.1 hl
  unfold targetOf at h
  dsimp only at h
  split at h
  · split at h <;> cases h
    bv_omega
  · split_ifs at h

/-- STATUS has one word offset (R30). -/
theorem addr_of_targetOf_status (hl : legalAccess size addr = true) (h : targetOf addr = .status) : addr = 0x008 := by
  obtain ⟨-, ha⟩ := legalAccess_iff.1 hl
  unfold targetOf at h
  dsimp only at h
  split at h
  · split at h <;> cases h
    bv_omega
  · split_ifs at h

/-- A CTRL write acts whatever BUSY is (R32, R325). -/
theorem access_write_ctrl (v : Word) : s.access (.write .word 0x004 v) = s.writeCtrl v := by
  cases hb : s.busy with
  | true => rw [access_write_busy rfl hb]; rfl
  | false => rw [access_write_idle rfl hb]; rfl

/-- A STATUS write acts whatever BUSY is (R33, R325). -/
theorem access_write_status (v : Word) : s.access (.write .word 0x008 v) = s.writeStatus v := by
  cases hb : s.busy with
  | true => rw [access_write_busy rfl hb]; rfl
  | false => rw [access_write_idle rfl hb]; rfl

end

/-! ## What a host access leaves unchanged (R22, R28, R29, R41, R329) -/

/-- The fields that only commands and resets write: F_OK, ERRCOUNT, the generator and the active field. -/
def State.commandSide (s : State) := (s.fOk, s.errcount, (s.gpoly, s.gdeg, s.gvalid), s.activeField)

theorem writeIdle_commandSide (s : State) {t : Target} (ht : t ≠ .ctrl) (v : Word) :
    (s.writeIdle t v).commandSide = s.commandSide := by
  cases t with
  | ctrl => exact absurd rfl ht
  | plen k => rcases writePlen_cases s k v with ⟨-, h⟩ | ⟨-, h⟩ <;> exact (congrArg State.commandSide h).trans rfl
  | pWin k i => rcases writePWin_cases s k i v with ⟨-, h⟩ | ⟨-, h⟩ <;> exact (congrArg State.commandSide h).trans rfl
  | _ => rfl

theorem access_commandSide (s : State) {a : Access} (ha : a.softResets = false) :
    (s.access a).commandSide = s.commandSide := by
  cases a with
  | read size addr =>
    obtain ⟨_, _, _, _, h⟩ := access_read_frame s size addr
    rw [h]
    rfl
  | write size addr v =>
    by_cases hc : legalAccess size addr = true ∧ targetOf addr = .ctrl
    · obtain ⟨hl, ht⟩ := hc
      obtain rfl := addr_of_targetOf_ctrl hl ht
      obtain ⟨rfl, -⟩ := legalAccess_iff.1 hl
      have hv : v.getLsbD 1 = false := ha
      rw [access_write_ctrl, State.writeCtrl, if_neg (by rw [hv]; decide)]
      rfl
    · rcases access_write_cases s size addr v with h | ⟨hl, ⟨ht, -⟩ | ⟨-, h⟩ | ⟨-, h⟩⟩
      · rw [h]; rfl
      · exact absurd ⟨hl, ht⟩ hc
      · rw [h]; rfl
      · rw [h, writeIdle_commandSide s fun ht => hc ⟨hl, ht⟩]

/-- No write clears the poll mark (R329). -/
theorem writeIdle_unpolled {s : State} (hs : s.unpolled = true) (t : Target) (v : Word) :
    (s.writeIdle t v).unpolled = true := by
  cases t with
  | ctrl => rcases writeCtrl_cases s v with ⟨-, h⟩ | ⟨-, h⟩ <;> exact (congrArg State.unpolled h).trans hs
  | plen k => rcases writePlen_cases s k v with ⟨-, h⟩ | ⟨-, h⟩ <;> exact (congrArg State.unpolled h).trans hs
  | pWin k i => rcases writePWin_cases s k i v with ⟨-, h⟩ | ⟨-, h⟩ <;> exact (congrArg State.unpolled h).trans hs
  | cmd => rfl
  | _ => exact hs

/-- The poll mark goes only with an idle STATUS read (R329). -/
theorem access_clears_unpolled {s : State} {a : Access} (hs : s.unpolled = true) (ht : (s.access a).unpolled = false) :
    s.busy = false ∧ a = .read .word 0x008 := by
  cases a with
  | read size addr =>
    by_cases hl : legalAccess size addr = true
    · cases hb : s.busy with
      | true =>
        rw [access_read_busy hl hb] at ht
        rcases readBusy_cases s (targetOf addr) with h | h <;> rw [h] at ht
        · rcases readIdle_cases s (targetOf addr) with ⟨-, h⟩ | ⟨-, h⟩ | ⟨-, -, h⟩ <;> simp [h, hs, hb] at ht
        · simp [hs] at ht
      | false =>
        rw [access_read_idle hl hb] at ht
        rcases readIdle_cases s (targetOf addr) with ⟨-, h⟩ | ⟨hst, -⟩ | ⟨-, -, h⟩
        · simp [h, hs] at ht
        · obtain ⟨rfl, -⟩ := legalAccess_iff.1 hl
          exact ⟨rfl, by rw [addr_of_targetOf_status hl hst]⟩
        · simp [h, hs] at ht
    · simp [access_read_illegal hl, hs] at ht
  | write size addr v =>
    rcases access_write_cases s size addr v with h | ⟨-, ⟨-, h⟩ | ⟨-, h⟩ | ⟨-, h⟩⟩ <;> rw [h] at ht
    · simp [hs] at ht
    · exact absurd ht (by rw [show (s.writeCtrl v).unpolled = true from writeIdle_unpolled hs .ctrl v]; decide)
    · simp [hs] at ht
    · rw [writeIdle_unpolled hs] at ht
      cases ht

/-! ## What a step without a reset writes (R22, R28, R29, R41, R328, R329) -/

section
variable {s t : State}

theorem of_commandSide_eq (h : t.commandSide = s.commandSide) :
    t.fOk = s.fOk ∧ t.errcount = s.errcount ∧ t.activeField = s.activeField := by
  simp only [State.commandSide, Prod.mk.injEq] at h
  obtain ⟨hf, he, -, ha⟩ := h
  exact ⟨hf, he, ha⟩

/-- A step that is no reset passes unused or records an illegal word, performs the command in execution, or makes a host
access. -/
theorem step_cases_of_no_reset (h : step s = .next t)
    (hreset : ∀ m rest, s.agenda = m :: rest → m ≠ .powerOn ∧ ∀ a, m = .access a → a.softResets = false) :
    (t.commandSide = s.commandSide ∧ t.sregs = s.sregs ∧ t.unpolled = s.unpolled) ∨
    (∃ i rest, s.busy = true ∧ decode s.inflight = .ok i ∧ exec i { s with agenda := rest } = .next t) ∨
    ∃ a rest, s.agenda = .access a :: rest ∧ a.softResets = false ∧ t = State.access { s with agenda := rest } a := by
  rcases step_cases s t h with ⟨u, hu, hturn⟩ | ⟨a, rest, hm, rfl⟩ | ⟨rest, hm, -⟩
  · obtain ⟨rest, rfl⟩ : ∃ rest, u = { s with agenda := rest } := by
      rcases hu with rfl | ⟨-, rest, -, hu⟩
      · exact ⟨u.agenda, rfl⟩
      · exact ⟨rest, hu⟩
    rcases hturn with ⟨-, rfl⟩ | ⟨hb, r, rfl, ⟨i, hi, rfl⟩ | ⟨-, rfl⟩⟩
    · exact .inl ⟨rfl, rfl, rfl⟩
    · exact .inr (.inl ⟨i, rest, hb, hi, exec_eq i _⟩)
    · exact .inl ⟨rfl, rfl, rfl⟩
  · obtain ⟨-, ha⟩ := hreset _ _ hm
    exact .inr (.inr ⟨a, rest, hm, ha a rfl, rfl⟩)
  · obtain ⟨hp, -⟩ := hreset _ _ hm
    exact absurd rfl hp

end

/-- Settles O13: of the moves that are no reset, a command writes within its frame, and a host access writes no field of the
commands' side. -/
theorem onlyTheNamedMovesWrite : Obligations.OnlyTheNamedMovesWrite := by
  intro s t h hreset
  simp only [← activeField_ne_iff]
  rcases step_cases_of_no_reset h hreset with ⟨hside, hs, hu⟩ | ⟨i, rest, hb, hi, hx⟩ | ⟨a, rest, hm, ha, rfl⟩
  · obtain ⟨hf, he, hact⟩ := of_commandSide_eq hside
    exact ⟨fun hn => absurd hf hn, fun hn => absurd he hn, fun hn => absurd hact hn,
      fun r hn => absurd (readS_congr hs r) hn, fun h1 h2 => nomatch h1.symm.trans (hu.symm.trans h2)⟩
  · obtain ⟨hS, -, hf, he, -, hact, -, -, -, -, -, -, -, -, -, hu⟩ := commandFrame i _ t hx
    refine ⟨fun hn => ⟨hb, ?_⟩, fun hn => ⟨hb, ?_⟩, fun hn => ⟨hb, ?_⟩, fun r hn => .inr ⟨hb, i, hi, ?_⟩,
      fun h1 h2 => nomatch h1.symm.trans (hu.symm.trans h2)⟩
    · by_contra hno
      obtain ⟨hc, hd⟩ := not_or.1 hno
      exact hn (hf (fun a b c e => hc ⟨a, b, c, e ▸ hi⟩) fun a b e => hd ⟨a, b, e ▸ hi⟩)
    · by_contra hd
      exact hn (he fun a b e => hd ⟨a, b, e ▸ hi⟩)
    · by_contra hbuild
      exact hn (activeField_eq_iff.2 (hact fun e => hbuild (e ▸ hi)))
    · by_contra hdest
      exact hn (hS r hdest)
  · obtain ⟨hf, he, hact⟩ := of_commandSide_eq (access_commandSide { s with agenda := rest } ha)
    refine ⟨fun hn => absurd hf hn, fun hn => absurd he hn, fun hn => absurd hact hn, fun r _ => .inl ⟨a, rest, hm⟩,
      fun h1 h2 => ?_⟩
    obtain ⟨hb, rfl⟩ := access_clears_unpolled (s := { s with agenda := rest }) h1 h2
    exact ⟨hb, rest, hm⟩

end Sys2Proof.Machine

/-! ## Reset (R45, R321) -/

namespace Sys2Proof.Machine

theorem atReset_resetEngine (s : State) : AtReset s.resetEngine := by
  refine ⟨fun r => ?_, fun k => ?_, ?_⟩
  · rw [readS_congr (s.resetEngine_sregs) r]
    simp [State.readS, State.reset]
  · rw [readP_congr (s.resetEngine_pregs) k]
    simp [State.readP, State.reset]
  · simp [State.reset, State.irq]

/-- A soft reset is a word write to CTRL with bit 1 set, and resets the engine (R32, R320). -/
theorem access_of_softResets (s : State) {a : Access} (h : a.softResets = true) : s.access a = s.resetEngine := by
  unfold Access.softResets at h
  split at h
  case h_1 addr v =>
    obtain ⟨rfl, hv⟩ : addr = 0x004 ∧ v.getLsbD 1 = true := by simpa only [Bool.and_eq_true, decide_eq_true_eq] using h
    rw [access_write_ctrl, State.writeCtrl, if_pos hv]
  case h_2 => cases h

/-- Settles O1: power-on and soft reset are resetEngine, and State.reset is its own reset. -/
theorem resetGivesEveryStateItsValue : Obligations.ResetGivesEveryStateItsValue := by
  refine ⟨atReset_resetEngine State.reset, fun s rest hm => ?_, fun s a ha => ?_⟩
  · exact ⟨_, by simp only [step, hm, makeMove], atReset_resetEngine { s with agenda := rest }⟩
  · rw [access_of_softResets s ha]
    exact atReset_resetEngine s

/-! ## Steps of the execution unit (R42, R280, R328) -/

theorem engineTurn_decoded {s : State} {i : Instr} (hb : s.busy = true) (hi : decode s.inflight = .ok i) :
    engineTurn s = exec i s := by
  rw [engineTurn_busy hb, perform, hi]

theorem step_engine {s : State} {rest : List Move} (hm : s.agenda = .engine :: rest) :
    step s = engineTurn { s with agenda := rest } := by
  simp only [step, hm, makeMove]

theorem step_nil {s : State} (hm : s.agenda = []) : step s = engineTurn s := by
  simp only [step, hm]

theorem decode_of_decodeTableWord {n w : Nat} {i : Instr} (h : decodeTableWord n w = some i) :
    decode (BitVec.ofNat 32 (w % 2 ^ n)) = .ok i := by
  unfold decodeTableWord at h
  split at h
  · cases h; assumption
  · cases h

/-- Settles O9: with the unit's turn next, or no move left, the step is a turn of the busy unit. -/
theorem stepRunsTheDecodedCommand : Obligations.StepRunsTheDecodedCommand := by
  refine ⟨fun s i rest hb hi hm => ?_, fun s i hb hi hm => ?_, fun s i n w h => ?_⟩
  · rw [step_engine hm]
    exact engineTurn_decoded hb hi
  · rw [step_nil hm]
    exact engineTurn_decoded hb hi
  · rw [step_engine (s := s.withFetchWord n w) rfl]
    exact engineTurn_decoded rfl (decode_of_decodeTableWord h)

/-! ## E_NOTREADY (R41, R285, R286) -/

/-- The READY check comes first in every rule that has one, but for PDIV's check of its destinations (R286). -/
theorem rule_of_not_ready {i : Instr} {s : State} (hwf : i.wf = true) (hi : requiresReady i = true)
    (hs : s.ready = false) : rule i s = .error .notReady := by
  cases i with
  | nop | build | li | pget | pput | plen | psetlen | pmov | prev | pstrip => cases hi
  | pdiv pd pa pb pc =>
    have hne : pd ≠ pc := of_decide_eq_true hwf
    simp [rule, rulePdiv, hne, hs]
  | gadd | gmul | gdiv | ginv | gpow | gexp | glog =>
    simp [rule, ruleGadd, ruleGmul, ruleGdiv, ruleGinv, ruleGpow, ruleGexp, ruleGlog, hs]
  | peval | pevala | pevalc | pmul | paddsb =>
    simp [rule, rulePeval, rulePevala, rulePevalc, rulePmul, rulePaddsb, hs]
  | rsgen | rsenc | rssyn | rsbm | rschien | rsforney | rsdec =>
    simp [rule, ruleRsgen, ruleRsenc, ruleRssyn, ruleRsbm, ruleRschien, ruleRsforney, ruleRsdec, hs]

/-- Settles O14, by the order of the checks in each rule. -/
theorem unbuiltEngineRaisesNotReady : Obligations.UnbuiltEngineRaisesNotReady :=
  fun _ _ hwf hi hs => exec_of_error (rule_of_not_ready hwf hi hs)

/-! ## Reads (R31 to R39, R46, R47) -/

/-- An idle read of a register other than STATUS answers its value. -/
theorem access_read_value {s : State} {addr : Addr} {t : Target} (hb : s.busy = false)
    (hl : legalAccess .word addr = true) (ht : targetOf addr = t) (hr : t ≠ .reserved) (hst : t ≠ .status) :
    s.access (.read .word addr) = { s with replies := s.busValue t :: s.replies } := by
  rw [access_read_idle hl hb, ht]
  rcases readIdle_cases s t with ⟨h, -⟩ | ⟨h, -⟩ | ⟨-, -, h⟩
  · exact absurd h hr
  · exact absurd h hst
  · exact h

/-- A read of STATUS answers its word and, with BUSY = 0, clears the poll mark (R327, R329). -/
theorem access_read_status (s : State) : s.access (.read .word 0x008) = s.readStatus := by
  cases hb : s.busy with
  | true => rw [access_read_busy rfl hb]; rfl
  | false => rw [access_read_idle rfl hb]; rfl

theorem readStatus_idle {s : State} (hb : s.busy = false) :
    s.readStatus = { s with replies := s.statusWord :: s.replies, unpolled := false } := by
  simp [State.readStatus, State.reply, hb]

theorem ctrlWord_eq (s : State) : s.ctrlWord = if s.irqEn then 1 else 0 := by
  unfold State.ctrlWord
  cases s.irqEn <;> rfl

/-- CTRL reads as defined whatever BUSY is (R32, R326). -/
theorem access_read_ctrl (s : State) :
    s.access (.read .word 0x004) = { s with replies := (if s.irqEn then 1 else 0) :: s.replies } := by
  have hreply : s.access (.read .word 0x004) = s.reply s.ctrlWord := by
    cases hb : s.busy with
    | true => rw [access_read_busy rfl hb]; rfl
    | false => rw [access_read_idle rfl hb]; rfl
  rw [hreply, ctrlWord_eq]
  rfl

/-- ACT_CFG holds M_act in its low byte and BASE_act in bit 8 (R37). -/
theorem actCfg_word (m : BitVec 5) (b : BitVec 1) :
    m.setWidth 32 ||| (b.setWidth 32 <<< 8) = BitVec.ofNat 32 (m.toNat + 256 * b.toNat) := by
  revert m b
  decide

/-- Settles O49, register by register of R30. -/
theorem idleReadsOfTheFixedRegisters : Obligations.IdleReadsOfTheFixedRegisters := by
  intro s hb rd
  simp only [BitVec.ofNat_toNat, ← actCfg_word]
  have value {addr : Addr} (t : Target) (hl : legalAccess .word addr = true) (ht : targetOf addr = t)
      (hr : t ≠ .reserved) (hst : t ≠ .status) : rd addr (s.busValue t) := access_read_value hb hl ht hr hst
  refine ⟨value .id rfl rfl nofun nofun, access_read_ctrl s, value .cmd rfl rfl nofun nofun, ?_,
    value .cfgM rfl rfl nofun nofun, value .cfgPoly rfl rfl nofun nofun, value .cfgBase rfl rfl nofun nofun,
    value .actCfg rfl rfl nofun nofun, value .actPoly rfl rfl nofun nofun, value .errcmd rfl rfl nofun nofun,
    value .errcount rfl rfl nofun nofun, value .gdeg rfl rfl nofun nofun, value .cap rfl rfl nofun nofun⟩
  rw [access_read_status, readStatus_idle hb]

/-- The bits of the STATUS word below ERRCODE (R33). -/
theorem statusWord_getLsbD (s : State) {i : Nat} (hi : i < 8) : s.statusWord.getLsbD i =
    [s.busy, s.ready, s.done, s.err, s.fOk, s.accerr, s.gvalid, s.errovf].getD i false := by
  simp only [State.statusWord, BitVec.getLsbD_append, BitVec.getLsbD_ofBool]
  interval_cases i <;> rfl

/-- Settles O50: the flags bit by bit, then the two upper parts of the word. -/
theorem statusWordShowsTheFlags : Obligations.StatusWordShowsTheFlags := by
  intro s
  have bit {i : Nat} (hi : i < 8) := statusWord_getLsbD s hi
  refine ⟨bit (by decide), bit (by decide), bit (by decide), bit (by decide), bit (by decide), bit (by decide),
    bit (by decide), bit (by decide), ?_, BitVec.extractLsb'_append_eq_left, rfl⟩
  rw [State.statusWord, BitVec.extractLsb'_append_eq_of_add_le (by decide)]
  exact BitVec.extractLsb'_append_eq_left

/-! ## Writes (R32 to R36, R42, R46, R47) -/

/-- A W1C bit (R33). -/
theorem and_not_eq_ite (a b : Bool) : (a && !b) = if b then false else a := by cases b <;> simp

/-- Settles O51: a STATUS write is State.writeStatus whatever BUSY is, and an idle CFG write truncates the word. -/
theorem statusAndConfigWrites : Obligations.StatusAndConfigWrites := by
  intro s v
  refine ⟨?_, fun hb => ?_⟩
  · simp only [access_write_status, State.writeStatus, and_not_eq_ite]
  · simp only [BitVec.ofNat_toNat]
    exact ⟨access_write_idle rfl hb v, access_write_idle rfl hb v, access_write_idle rfl hb v⟩

/-- Settles O52, by the two cases of a CTRL write. -/
theorem ctrlWriteEnablesOrResets : Obligations.CtrlWriteEnablesOrResets := by
  intro s v
  refine ⟨access_read_ctrl s, fun hv => ?_, fun hv => ?_⟩ <;> rw [access_write_ctrl, State.writeCtrl]
  · rw [if_neg (by rw [hv]; decide)]
  · rw [if_pos hv]
    rfl

/-- Settles O53: an accepted CMD write is State.issue, which leaves BUSY = 1; an idle STATUS read clears the poll mark. -/
theorem cmdWriteIssuesOrIsDropped : Obligations.CmdWriteIssuesOrIsDropped := by
  intro s w
  refine ⟨fun hb => ?_, fun hb => access_write_busy rfl hb w⟩
  have hissue : s.access (.write .word 0x00C w) = s.issue w := access_write_idle rfl hb w
  refine ⟨hissue, ?_, fun hm => ?_⟩
  · rw [hissue]
    rintro ⟨-, -, h⟩
    cases h
  · rw [access_read_status]
    exact ⟨hm, by rw [State.readStatus_unpolled, hb, Bool.and_false], hb⟩

/-- S<i> stands at word 0x040 + 4i (R30). -/
theorem targetOf_sreg (i : SReg) : legalAccess .word (BitVec.ofNat 24 (0x040 + 4 * i.val)) = true ∧
    targetOf (BitVec.ofNat 24 (0x040 + 4 * i.val)) = .sreg i := by
  revert i
  decide

/-- PLEN<k> stands at word 0x080 + 4k (R30). -/
theorem targetOf_plen (k : PReg) : legalAccess .word (BitVec.ofNat 24 (0x080 + 4 * k.val)) = true ∧
    targetOf (BitVec.ofNat 24 (0x080 + 4 * k.val)) = .plen k := by
  revert k
  decide

/-- Settles O54: the addresses select Si and PLENk, and a PLENk write is one of the two cases of State.writePlen. -/
theorem scalarAndLengthRegisterAccesses : Obligations.ScalarAndLengthRegisterAccesses := by
  intro s i k v hb sa pa
  obtain ⟨hsl, hst⟩ := targetOf_sreg i
  obtain ⟨hpl, hpt⟩ := targetOf_plen k
  have hwrite : s.access (.write .word pa v) = s.writePlen k v := by
    rw [access_write_idle hpl hb, hpt]
    rfl
  have hn : (v.setWidth 17).toNat = v.toNat % 2 ^ 17 := BitVec.toNat_setWidth _ _
  simp only [BitVec.ofNat_toNat]
  refine ⟨access_read_value hb hsl hst nofun nofun, ?_, access_read_value hb hpl hpt nofun nofun, fun hle => ?_,
    fun hgt => ?_⟩
  · rw [access_write_idle hsl hb, hst]
    rfl
  · refine ⟨setLen (v.toNat % 2 ^ 17) (s.readP k), ?_, setLen_length _ _, fun j hj => ?_⟩
    · rcases writePlen_cases s k v with ⟨-, h⟩ | ⟨h, -⟩
      · rw [hwrite, h, hn]
      · exact absurd hle (by rw [← hn]; exact h.not_ge)
    · rw [setLen_getD, if_pos hj]
      split
      · rfl
      · exact List.getD_eq_default _ _ (by omega)
  · rcases writePlen_cases s k v with ⟨h, -⟩ | ⟨-, h⟩
    · exact absurd hgt (by rw [← hn]; exact h.not_gt)
    · rw [hwrite, h]
      rfl

end Sys2Proof.Machine

/-! ## Windows and access errors (R62, R64 to R69, R293, R326) -/

namespace Sys2Proof.Machine

section
variable {s : State} {size : AccessSize} {addr : Addr} {t : Target}

/-- The unmapped offsets of R30. -/
theorem targetOf_eq_reserved_iff : targetOf addr = .reserved ↔
    (0x034 ≤ addr.toNat ∧ addr.toNat < 0x040) ∨ (0x0A0 ≤ addr.toNat ∧ addr.toNat < 0x040000) ∨
      0x300000 ≤ addr.toNat := by
  unfold targetOf
  dsimp only
  split
  · have hmapped : ¬ ((0x034 ≤ addr.toNat ∧ addr.toNat < 0x040) ∨
        (0x0A0 ≤ addr.toNat ∧ addr.toNat < 0x040000) ∨ 0x300000 ≤ addr.toNat) := by omega
    split <;> simp only [reduceCtorEq, hmapped]
  · split_ifs <;> simp only [true_iff, false_iff] <;> omega

/-- EXP[i], LOG[i] and G[i] stand at word i of their windows (R30, R65, R66). -/
theorem targetOf_tableWindows {i : Nat} (hi : i < 65536) :
    (legalAccess .word (BitVec.ofNat 24 (0x040000 + 4 * i)) = true ∧
      targetOf (BitVec.ofNat 24 (0x040000 + 4 * i)) = .expWin i) ∧
    (legalAccess .word (BitVec.ofNat 24 (0x080000 + 4 * i)) = true ∧
      targetOf (BitVec.ofNat 24 (0x080000 + 4 * i)) = .logWin i) ∧
    (legalAccess .word (BitVec.ofNat 24 (0x0C0000 + 4 * i)) = true ∧
      targetOf (BitVec.ofNat 24 (0x0C0000 + 4 * i)) = .gWin i) := by
  have he : (BitVec.ofNat 24 (0x040000 + 4 * i)).toNat = 0x040000 + 4 * i := Nat.mod_eq_of_lt (by omega)
  have hl : (BitVec.ofNat 24 (0x080000 + 4 * i)).toNat = 0x080000 + 4 * i := Nat.mod_eq_of_lt (by omega)
  have hg : (BitVec.ofNat 24 (0x0C0000 + 4 * i)).toNat = 0x0C0000 + 4 * i := Nat.mod_eq_of_lt (by omega)
  simp (disch := omega) only [legalAccess_iff, true_and, targetOf, he, hl, hg, if_neg, if_pos,
    Nat.add_sub_cancel_left, Nat.mul_div_cancel_left, and_true]
  omega

/-- Pk[i] stands at word i of the window of Pk (R30, R64). -/
theorem targetOf_pWin (k : PReg) {i : Nat} (hi : i < 65536) :
    legalAccess .word (BitVec.ofNat 24 (0x100000 + 0x40000 * k.val + 4 * i)) = true ∧
      targetOf (BitVec.ofNat 24 (0x100000 + 0x40000 * k.val + 4 * i)) = .pWin k i := by
  have hk := k.isLt
  have ho : (BitVec.ofNat 24 (0x100000 + 0x40000 * k.val + 4 * i)).toNat = 0x100000 + 0x40000 * k.val + 4 * i :=
    Nat.mod_eq_of_lt (by omega)
  have hreg : (0x100000 + 0x40000 * k.val + 4 * i - 0x100000) / 0x40000 = k.val := by omega
  have hidx : (0x100000 + 0x40000 * k.val + 4 * i - 0x100000) % 0x40000 / 4 = i := by omega
  refine ⟨legalAccess_iff.2 ⟨rfl, by omega⟩, ?_⟩
  simp (disch := omega) only [targetOf, ho, hreg, hidx, if_neg, if_pos, Fin.ofNat_val_eq_self]

/-- A write that an idle engine refuses is refused at any size and alignment, busy or not (R68, R293, R326). -/
theorem access_write_refused {v : Word} (ht : targetOf addr = t) (hw : s.writeIdle t v = s.accessError)
    (hc : t ≠ .ctrl) (hst : t ≠ .status) : s.access (.write size addr v) = s.accessError := by
  rcases access_write_cases s size addr v with h | ⟨-, ⟨h, -⟩ | ⟨h, -⟩ | ⟨-, h⟩⟩
  · exact h
  · exact absurd (ht.symm.trans h) hc
  · exact absurd (ht.symm.trans h) hst
  · rw [h, ht, hw]

theorem access_write_illegal (hl : legalAccess size addr ≠ true) (v : Word) :
    s.access (.write size addr v) = s.accessError := by
  rcases access_write_cases s size addr v with h | ⟨h, -⟩
  · exact h
  · exact absurd h hl

/-- A reserved offset reads 0 with ACCERR, busy or not (R67, log 5). -/
theorem access_read_reserved (ht : targetOf addr = .reserved) :
    s.access (.read size addr) = s.accessError.reply 0 := by
  by_cases hl : legalAccess size addr = true
  · cases hb : s.busy with
    | true => rw [access_read_busy hl hb, ht]; rfl
    | false => rw [access_read_idle hl hb, ht]; rfl
  · exact access_read_illegal hl

/-- Everything a read can do: an access error, a read as when idle, or with BUSY = 1 an unspecified word (R62, R326). -/
theorem access_read_cases (s : State) (size : AccessSize) (addr : Addr) :
    (legalAccess size addr ≠ true ∧ s.access (.read size addr) = s.accessError.reply 0) ∨
      (legalAccess size addr = true ∧ s.access (.read size addr) = s.readIdle (targetOf addr)) ∨
      (s.busy = true ∧ s.access (.read size addr) = s.replyDraw) := by
  by_cases hl : legalAccess size addr = true
  · cases hb : s.busy with
    | true =>
      rw [access_read_busy hl hb]
      exact .inr ((readBusy_cases s (targetOf addr)).imp (⟨hl, ·⟩) (⟨rfl, ·⟩))
    | false => exact .inr (.inl ⟨hl, access_read_idle hl hb⟩)
  · exact .inl ⟨hl, access_read_illegal hl⟩

/-- What a read that draws nothing leaves unchanged: the poll mark but for an idle STATUS read, and ACCERR but at a reserved
offset (R67, R69, R329). -/
theorem readIdle_frame (s : State) (t : Target) :
    ∃ w e u, s.readIdle t = { s with replies := w :: s.replies, accerr := e, unpolled := u } ∧
      (t ≠ .status ∨ s.busy = true → u = s.unpolled) ∧ (t ≠ .reserved → e = s.accerr) := by
  rcases readIdle_cases s t with ⟨ht, h⟩ | ⟨ht, h⟩ | ⟨-, -, h⟩
  · exact ⟨0, true, s.unpolled, h, fun _ => rfl, absurd ht⟩
  · refine ⟨s.statusWord, s.accerr, s.unpolled && s.busy, h, ?_, fun _ => rfl⟩
    rintro (hn | hb)
    · exact absurd ht hn
    · rw [hb, Bool.and_true]
  · exact ⟨s.busValue t, s.accerr, s.unpolled, h, fun _ => rfl, fun _ => rfl⟩

end

/-- Settles O55: the address selects Pk[i], and a write there is one of the two cases of State.writePWin. -/
theorem polynomialWindowAccesses : Obligations.PolynomialWindowAccesses := by
  intro s k i v hb hi a P
  obtain ⟨hl, ht⟩ := targetOf_pWin k hi
  have hvalue : s.busValue (.pWin k i) = if i < P.length then (P.getD i 0).setWidth 32 else 0 := by
    split
    · rfl
    · exact congrArg (BitVec.setWidth 32) (List.getD_eq_default _ _ (not_lt.1 ‹_›))
  have hwrite : s.access (.write .word a v) = s.writePWin k i v := by
    rw [access_write_idle hl hb, ht]
    rfl
  simp only [BitVec.ofNat_toNat]
  refine ⟨by rw [access_read_value hb hl ht nofun nofun, hvalue], fun hlt => ?_, fun hge => ?_⟩
  · rcases writePWin_cases s k i v with ⟨-, h⟩ | ⟨h, -⟩
    · rw [hwrite, h]
    · exact absurd hlt h.not_gt
  · rcases writePWin_cases s k i v with ⟨h, -⟩ | ⟨-, h⟩
    · exact absurd h hge.not_gt
    · rw [hwrite, h]
      rfl

/-- Settles O56: the addresses select EXP[i], LOG[i] and G[i], whose values State.busValue guards and whose writes are
refused. -/
theorem tableAndGeneratorWindowAccesses : Obligations.TableAndGeneratorWindowAccesses := by
  intro s i v hb hi e l g Q rd
  obtain ⟨⟨hel, het⟩, ⟨hll, hlt⟩, ⟨hgl, hgt⟩⟩ := targetOf_tableWindows hi
  have value {a : Addr} {t : Target} (w : Word) (hl : legalAccess .word a = true) (ht : targetOf a = t)
      (hr : t ≠ .reserved) (hst : t ≠ .status) (hw : s.busValue t = w) : rd a w :=
    hw ▸ access_read_value hb hl ht hr hst
  refine ⟨value _ hel het nofun nofun ?_, value _ hll hlt nofun nofun ?_, value _ hgl hgt nofun nofun ?_,
    access_write_refused het rfl nofun nofun, access_write_refused hlt rfl nofun nofun,
    access_write_refused hgt rfl nofun nofun⟩ <;>
  simp only [State.busValue, BitVec.ofNat_toNat, Bool.and_eq_true, decide_eq_true_eq, and_assoc] <;> rfl

/-- Settles O57: an illegal access fails legalAccess, and a reserved or read-only offset selects a target that refuses the
write. -/
theorem accessErrorsOnlySetAccerr : Obligations.AccessErrorsOnlySetAccerr := by
  intro s size a v o reserved readOnly
  refine ⟨fun h => ?_, fun h => ?_⟩
  · by_cases hl : legalAccess size a = true
    · have ht : targetOf a = .reserved := targetOf_eq_reserved_iff.2 <| by
        obtain ⟨hs, ha⟩ := legalAccess_iff.1 hl
        exact (h.resolve_left (absurd hs)).resolve_left (absurd ha)
      exact ⟨access_read_reserved ht, access_write_refused ht rfl nofun nofun⟩
    · exact ⟨access_read_illegal hl, access_write_illegal hl v⟩
  · have at_offset {n : Nat} (hn : a.toNat = n) : a = BitVec.ofNat 24 n := by
      rw [← hn, BitVec.ofNat_toNat, BitVec.setWidth_eq]
    rcases h with h | h | h | h | h | h | h <;>
    · rw [at_offset h]
      exact access_write_refused rfl rfl nofun nofun

/-- Settles O59: an access error, a read that draws nothing, or an unspecified word. -/
theorem readsHaveNoSideEffect : Obligations.ReadsHaveNoSideEffect := by
  intro s size a
  rcases access_read_cases s size a with ⟨hl, h⟩ | ⟨hl, h⟩ | ⟨hb, h⟩
  · refine ⟨0, s.draws, true, s.unpolled, h, fun _ => rfl, fun _ => rfl, fun hs ha => ?_⟩
    exact absurd (legalAccess_iff.2 ⟨hs, ha⟩) hl
  · obtain ⟨w, e, u, hread, hu, he⟩ := readIdle_frame s (targetOf a)
    refine ⟨w, s.draws, e, u, h.trans hread, fun hpoll => hu (hpoll.imp_left fun ha hst => ?_), fun _ => rfl,
      fun _ _ ho => he fun hr => ?_⟩
    · exact ha (addr_of_targetOf_status hl hst)
    · have hunmapped := targetOf_eq_reserved_iff.1 hr
      omega
  · exact ⟨_, s.draws + 1, s.accerr, s.unpolled, h, fun _ => rfl, fun hi => absurd (hb.symm.trans hi) nofun,
      fun _ _ _ => rfl⟩

end Sys2Proof.Machine

/-! ## The command word (R90 to R97) -/

namespace Sys2Proof.Machine

/-! ### The fields of a word and the registers they name (R91, R93) -/

section
variable (op : BitVec 8) (d a b c : BitVec 4) (imm : Elem) (w : Word)

open BitVec (extractLsb'_append_eq_of_add_le extractLsb'_append_extractLsb'_eq_extractLsb')

theorem extractLsb'_append_append {m n k : Nat} (x : BitVec m) (y : BitVec n) (z : BitVec k) :
    (x ++ (y ++ z)).extractLsb' k n = y := by
  rw [extractLsb'_append_eq_of_add_le (by omega), BitVec.extractLsb'_append_eq_left]

@[simp] theorem fieldD_pack : fieldD (pack op d a b c) = d := extractLsb'_append_append op d _

@[simp] theorem fieldA_pack : fieldA (pack op d a b c) = a :=
  (extractLsb'_append_eq_of_add_le (by decide)).trans (extractLsb'_append_append d a _)

@[simp] theorem fieldB_pack : fieldB (pack op d a b c) = b := by
  unfold fieldB pack
  iterate 2 rw [extractLsb'_append_eq_of_add_le (by decide)]
  exact extractLsb'_append_append a b _

@[simp] theorem fieldC_pack : fieldC (pack op d a b c) = c := by
  unfold fieldC pack
  iterate 3 rw [extractLsb'_append_eq_of_add_le (by decide)]
  exact extractLsb'_append_append b c _

@[simp] theorem fieldZ_pack : fieldZ (pack op d a b c) = 0 := by
  unfold fieldZ pack
  iterate 4 rw [extractLsb'_append_eq_of_add_le (by decide)]
  exact BitVec.extractLsb'_append_eq_right

@[simp] theorem fieldD_packI : fieldD (packI op d imm) = d := extractLsb'_append_append op d _

@[simp] theorem fieldA_packI : fieldA (packI op d imm) = 0 :=
  (extractLsb'_append_eq_of_add_le (by decide)).trans (extractLsb'_append_append d 0 imm)

@[simp] theorem fieldImm_packI : fieldImm (packI op d imm) = imm := by
  unfold fieldImm packI
  iterate 2 rw [extractLsb'_append_eq_of_add_le (by decide)]
  exact BitVec.extractLsb'_append_eq_right

/-- A word is its fields OP, D, A, imm16 in this order. -/
theorem append_fieldImm : fieldOP w ++ (fieldD w ++ (fieldA w ++ fieldImm w)) = w := by
  unfold fieldOP fieldD fieldA fieldImm
  iterate 3 rw [extractLsb'_append_extractLsb'_eq_extractLsb' (by rfl)]
  exact BitVec.extractLsb'_eq_self

/-- A word is its fields OP, D, A, B, C, Z in this order. -/
theorem append_fieldZ : fieldOP w ++ (fieldD w ++ (fieldA w ++ (fieldB w ++ (fieldC w ++ fieldZ w)))) = w := by
  unfold fieldOP fieldD fieldA fieldB fieldC fieldZ
  iterate 5 rw [extractLsb'_append_extractLsb'_eq_extractLsb' (by rfl)]
  exact BitVec.extractLsb'_eq_self

theorem fieldOP_toNat : (fieldOP w).toNat = w.toNat / 2 ^ 24 := by
  simp [fieldOP, Nat.shiftRight_eq_div_pow]; omega
theorem fieldD_toNat : (fieldD w).toNat = w.toNat / 2 ^ 20 % 16 := by simp [fieldD, Nat.shiftRight_eq_div_pow]
theorem fieldA_toNat : (fieldA w).toNat = w.toNat / 2 ^ 16 % 16 := by simp [fieldA, Nat.shiftRight_eq_div_pow]
theorem fieldB_toNat : (fieldB w).toNat = w.toNat / 2 ^ 12 % 16 := by simp [fieldB, Nat.shiftRight_eq_div_pow]
theorem fieldC_toNat : (fieldC w).toNat = w.toNat / 2 ^ 8 % 16 := by simp [fieldC, Nat.shiftRight_eq_div_pow]
theorem fieldZ_toNat : (fieldZ w).toNat = w.toNat % 2 ^ 8 := by simp [fieldZ]

@[simp] theorem sregOf_sbits (r : SReg) : sregOf (sbits r) = r := by
  ext; simp [sregOf, sbits]

@[simp] theorem pregOf_pbits (r : PReg) : pregOf (pbits r) = r := by
  revert r; decide

@[simp] theorem sbits_sregOf (f : BitVec 4) : sbits (sregOf f) = f := by
  revert f; decide

theorem pbits_pregOf {f : BitVec 4} (h : f.toNat < 8) : pbits (pregOf f) = f := by
  simp [pbits, pregOf, Nat.mod_eq_of_lt h]

theorem getLsbD_three_iff {f : BitVec 4} : f.getLsbD 3 = true ↔ 8 ≤ f.toNat := by
  revert f; decide

theorem getLsbD_three_pbits (r : PReg) : (pbits r).getLsbD 3 = false := by
  revert r; decide

end

/-! ### The checks of R96 -/

section
variable {i : Instr}

@[simp] theorem needZero_zero {n : Nat} (k : Except Reject Instr) : needZero 0#n k = k := if_pos rfl

@[simp] theorem needPoly_pbits (r : PReg) (k : PReg → Except Reject Instr) : needPoly (pbits r) k = k r := by
  simp only [needPoly, getLsbD_three_pbits, Bool.false_eq_true, if_false, pregOf_pbits]

theorem needWf_of_wf (h : i.wf = true) : needWf (.ok i) = .ok i := if_pos h

end

/-! ### Decoding an encoded command (R95) -/

@[simp] theorem fieldOP_encode (i : Instr) : fieldOP (encode i) = i.opcode := by
  cases i with
  | li => exact fieldOP_packI _ _ _
  | _ => exact fieldOP_pack _ _ _ _ _

/-- Settles O6: the encoder puts the opcode and each operand in the field its format reads it from, with 0 in every other
field, so every check of the format passes. -/
theorem decodeOfEncodeIsTheCommand : Obligations.DecodeOfEncodeIsTheCommand := by
  intro i hwf
  rw [decode, fieldOP_encode]
  cases i with
  | nop | build => simp [Instr.opcode, encode, fmtZ]
  | li => simp [Instr.opcode, encode, fmtI]
  | gadd | gmul | gdiv | gpow => simp [Instr.opcode, encode, fmtR3]
  | ginv | gexp | glog => simp [Instr.opcode, encode, fmtR2]
  | rsgen => simp [Instr.opcode, encode, fmtXR]
  | plen => simp [Instr.opcode, encode, fmtRP]
  | pget | peval | pevala => simp [Instr.opcode, encode, fmtRPR]
  | pevalc => simp [Instr.opcode, encode, fmtRPRR]
  | psetlen => simp [Instr.opcode, encode, fmtPR]
  | pput => simp [Instr.opcode, encode, fmtPRR]
  | pmov | prev | pstrip | rsenc | rsbm | rsdec => simp [Instr.opcode, encode, fmtPP]
  | pmul | rssyn => simp [Instr.opcode, encode, fmtPPP]
  | rschien => simp [Instr.opcode, encode, fmtPPR]
  | paddsb => simp [Instr.opcode, encode, fmtPPPR]
  | rsforney => simp [Instr.opcode, encode, fmtPPPP]
  | pdiv => simp [Instr.opcode, encode, fmtPPPP, needWf_of_wf hwf]

/-- Settles O5: each word is the word of its command. -/
theorem writtenOutWordsDecode : Obligations.WrittenOutWordsDecode := by
  have roundTrip := decodeOfEncodeIsTheCommand
  exact ⟨roundTrip .nop rfl, roundTrip .build rfl, roundTrip (.li 1 0x1D) rfl, roundTrip (.gdiv 3 1 2) rfl,
    roundTrip (.pget 4 0 2) rfl, roundTrip (.pput 1 1 2) rfl, roundTrip (.pevalc 5 1 2 5) rfl,
    roundTrip (.pdiv 3 0 1 4) rfl, roundTrip (.paddsb 2 0 1 6) rfl, roundTrip (.rsgen 1) rfl,
    roundTrip (.rsenc 1 0) rfl, roundTrip (.rschien 4 3 7) rfl, roundTrip (.rsforney 0 2 3 4) rfl⟩

/-! ### The fields of a legal word (R92, R96) -/

/-- The uses of D, A, B, C in a format (R92). -/
abbrev FieldUses := FieldUse × FieldUse × FieldUse × FieldUse

/-- The fields of w keep their uses u (R92): R96 (b), (c) and (d) do not hold. -/
def FieldsFit (u : FieldUses) (w : Word) : Prop :=
  (u.2.2.2 ≠ .imm → fieldZ w = 0) ∧ ¬ fieldIllegal u.1 (fieldD w).toNat ∧ ¬ fieldIllegal u.2.1 (fieldA w).toNat ∧
    ¬ fieldIllegal u.2.2.1 (fieldB w).toNat ∧ ¬ fieldIllegal u.2.2.2 (fieldC w).toNat

/-- The check a use puts on a field (R93). -/
def needUse (u : FieldUse) (f : BitVec 4) (k : Except Reject Instr) : Except Reject Instr :=
  match u with
  | .zero => needZero f k
  | .p => needPoly f fun _ => k
  | .s | .imm => k

/-- Every format of R92 at once: the command i, when the fields of w keep their uses u. -/
def readFields (u : FieldUses) (w : Word) (i : Instr) : Except Reject Instr :=
  let fields := needUse u.1 (fieldD w) <| needUse u.2.1 (fieldA w) <| needUse u.2.2.1 (fieldB w) <|
    needUse u.2.2.2 (fieldC w) <| .ok i
  match u.2.2.2 with
  | .imm => fields
  | .zero | .p | .s => needZero (fieldZ w) fields

/-- The bits the encoder writes for the operand a field f of use u names. -/
def useBits (u : FieldUse) (f : BitVec 4) : BitVec 4 :=
  match u with
  | .zero => 0
  | .p => pbits (pregOf f)
  | .s => sbits (sregOf f)
  | .imm => f

/-- The word the encoder writes for opcode op and the operands that the fields of w name by uses u. -/
def rewritten (op : BitVec 8) (u : FieldUses) (w : Word) : Word :=
  match u.2.2.2 with
  | .imm => op ++ (useBits u.1 (fieldD w) ++ (useBits u.2.1 (fieldA w) ++ fieldImm w))
  | .zero | .p | .s =>
    pack op (useBits u.1 (fieldD w)) (useBits u.2.1 (fieldA w)) (useBits u.2.2.1 (fieldB w)) (useBits u.2.2.2 (fieldC w))

section
variable {u : FieldUses} {w : Word} {r k : Except Reject Instr} {i j : Instr}

theorem needZero_eq_ok_iff {n : Nat} {f : BitVec n} : needZero f k = .ok i ↔ f = 0 ∧ k = .ok i := by
  unfold needZero
  split <;> simp_all

theorem needUse_eq_ok_iff {u : FieldUse} {f : BitVec 4} :
    needUse u f k = .ok i ↔ ¬ fieldIllegal u f.toNat ∧ k = .ok i := by
  cases u with
  | zero => simp [needUse, needZero_eq_ok_iff, fieldIllegal, ← BitVec.toNat_inj]
  | p =>
    simp only [needUse, needPoly, fieldIllegal, getLsbD_three_iff]
    split <;> simp [*]
  | s | imm => simp [needUse, fieldIllegal]

theorem readFields_eq_ok_iff : readFields u w i = .ok j ↔ FieldsFit u w ∧ i = j := by
  obtain ⟨ud, ua, ub, uc⟩ := u
  cases uc <;> simp [readFields, FieldsFit, needZero_eq_ok_iff, needUse_eq_ok_iff, and_assoc]

theorem needWf_eq_ok_iff : needWf r = .ok i ↔ r = .ok i ∧ i.wf = true := by
  cases r with
  | error e => simp [needWf]
  | ok j =>
    simp only [needWf, Except.ok.injEq]
    split <;> grind

theorem useBits_of_legal {u : FieldUse} {f : BitVec 4} (h : ¬ fieldIllegal u f.toNat) : useBits u f = f := by
  cases u with
  | zero =>
    have hz : f.toNat = 0 := not_not.1 h
    exact (BitVec.eq_of_toNat_eq hz).symm
  | p => exact pbits_pregOf (not_le.1 h)
  | s => exact sbits_sregOf f
  | imm => rfl

theorem rewritten_of_fit (h : FieldsFit u w) : rewritten (fieldOP w) u w = w := by
  obtain ⟨ud, ua, ub, uc⟩ := u
  obtain ⟨hz, hd, ha, hb, hc⟩ := h
  simp only [rewritten, useBits_of_legal hd, useBits_of_legal ha, useBits_of_legal hb, useBits_of_legal hc]
  cases uc with
  | imm => exact append_fieldImm w
  | zero | p | s =>
    have hw := append_fieldZ w
    rwa [hz nofun] at hw

/-- The decoder's answer r to w is what the opcode's field uses u give for the command i named by the fields. -/
structure ReadBy (w : Word) (r : Except Reject Instr) (u : FieldUses) (i : Instr) : Prop where
  uses_eq : fieldUses (fieldOP w).toNat = some u
  answer_eq : r = needWf (readFields u w i)
  opcode_eq : i.opcode = fieldOP w
  encode_eq : encode i = rewritten i.opcode u w
  wf_iff : FieldsFit u w → (i.wf = true ↔ ¬ ((fieldOP w).toNat = 0x34 ∧ fieldD w = fieldC w))

theorem needWf_readFields (h : i.wf = true) : needWf (readFields u w i) = readFields u w i := by
  cases hr : readFields u w i with
  | error e => rfl
  | ok j =>
    obtain ⟨-, rfl⟩ := readFields_eq_ok_iff.1 hr
    exact needWf_of_wf h

/-- R96(e) concerns PDIV alone. -/
theorem readBy_of_ne_pdiv {n : Nat} (hop : (fieldOP w).toNat = n) (hn : n ≠ 0x34) (hu : fieldUses n = some u)
    (hr : r = readFields u w i) (hi : i.opcode.toNat = n) (he : encode i = rewritten i.opcode u w)
    (hwf : i.wf = true) : ReadBy w r u i where
  uses_eq := hop ▸ hu
  answer_eq := hr.trans (needWf_readFields hwf).symm
  opcode_eq := BitVec.eq_of_toNat_eq (hi.trans hop.symm)
  encode_eq := he
  wf_iff _ := iff_of_true hwf fun h => hn (hop.symm.trans h.1)

/-- R96(e): fields that fit name the same register only when they are equal. -/
theorem readBy_pdiv (hop : (fieldOP w).toNat = 0x34) : ReadBy w (needWf (fmtPPPP w .pdiv)) (.p, .p, .p, .p)
    (.pdiv (pregOf (fieldD w)) (pregOf (fieldA w)) (pregOf (fieldB w)) (pregOf (fieldC w))) where
  uses_eq := hop ▸ rfl
  answer_eq := rfl
  opcode_eq := BitVec.eq_of_toNat_eq hop.symm
  encode_eq := rfl
  wf_iff h := by
    obtain ⟨-, hd, -, -, hc⟩ := h
    have inj : pregOf (fieldD w) = pregOf (fieldC w) ↔ fieldD w = fieldC w :=
      ⟨fun h => by rw [← pbits_pregOf (not_le.1 hd), h, pbits_pregOf (not_le.1 hc)], congrArg _⟩
    simp [Instr.wf, hop, inj]

/-- The decoder, by the opcode map of R95 and the format table of R92: an opcode is unassigned, or the fields are read by
its uses. (Of the map's arms the 22nd is PDIV and the 31st the unassigned opcodes.) -/
theorem decode_cases (w : Word) :
    (fieldUses (fieldOP w).toNat = none ∧ decode w = .error .unassignedOpcode) ∨ ∃ u i, ReadBy w (decode w) u i := by
  unfold decode
  split
  case h_22 hop => exact .inr ⟨_, _, readBy_pdiv hop⟩
  case h_31 =>
    have hnone : fieldUses (fieldOP w).toNat = none := by simp [fieldUses, *]
    exact .inl ⟨hnone, rfl⟩
  all_goals
    rename_i hop
    exact .inr ⟨_, _, readBy_of_ne_pdiv hop (by decide) rfl rfl rfl rfl rfl⟩

theorem ReadBy.decode_eq_ok_iff (h : ReadBy w (decode w) u i) :
    decode w = .ok j ↔ FieldsFit u w ∧ i = j ∧ i.wf = true := by
  rw [h.answer_eq, needWf_eq_ok_iff, readFields_eq_ok_iff, and_assoc]
  exact and_congr_right fun _ => and_congr_right fun e => e ▸ Iff.rfl

theorem fieldUses_imm_iff {n : Nat} (h : fieldUses n = some u) : u.2.2.2 = .imm ↔ n = 0x10 := by
  unfold fieldUses at h
  split at h <;> cases h <;> simp

theorem wordIllegal_of_unassigned (h : fieldUses (fieldOP w).toNat = none) : wordIllegal w.toNat := by
  unfold wordIllegal
  rw [← fieldOP_toNat, h]
  trivial

/-- R96 for an assigned opcode, read from the fields of the word. -/
theorem wordIllegal_iff (h : fieldUses (fieldOP w).toNat = some u) :
    wordIllegal w.toNat ↔ ¬ FieldsFit u w ∨ ((fieldOP w).toNat = 0x34 ∧ fieldD w = fieldC w) := by
  obtain ⟨ud, ua, ub, uc⟩ := u
  have himm : uc = .imm ↔ (fieldOP w).toNat = 0x10 := fieldUses_imm_iff h
  unfold wordIllegal
  rw [← fieldOP_toNat, ← fieldD_toNat, ← fieldA_toNat, ← fieldB_toNat, ← fieldC_toNat, ← fieldZ_toNat, h]
  simp only [FieldsFit, ne_eq, himm, ← BitVec.toNat_inj]
  tauto

/-- An assigned opcode's word is rejected exactly when R96 (b) to (e) holds of its fields. -/
theorem ReadBy.rejected_iff (h : ReadBy w (decode w) u i) : (∃ e, decode w = .error e) ↔ wordIllegal w.toNat := by
  have accepted : (∃ e, decode w = .error e) ↔ ¬ ∃ j, decode w = .ok j := by
    cases decode w <;> simp
  rw [accepted, wordIllegal_iff h.uses_eq]
  simp only [h.decode_eq_ok_iff, exists_and_left, exists_eq_left', not_and_or]
  by_cases hfit : FieldsFit u w
  · simp [hfit, h.wf_iff hfit]
  · simp [hfit]

end

theorem decode_rejects_iff (w : Word) : (∃ r, decode w = .error r) ↔ wordIllegal w.toNat := by
  rcases decode_cases w with ⟨hnone, herr⟩ | ⟨u, i, hread⟩
  · exact iff_of_true ⟨_, herr⟩ (wordIllegal_of_unassigned hnone)
  · exact hread.rejected_iff

/-- Settles O7: the fields of a legal word fit their uses, so the encoder writes back the same fields. -/
theorem encodeOfDecodeIsTheWord : Obligations.EncodeOfDecodeIsTheWord := by
  intro w j h
  rcases decode_cases w with ⟨-, herr⟩ | ⟨u, i, hread⟩
  · exact absurd (herr.symm.trans h) nofun
  · obtain ⟨hfit, rfl, hwf⟩ := hread.decode_eq_ok_iff.1 h
    exact ⟨by rw [hread.encode_eq, hread.opcode_eq, rewritten_of_fit hfit], hwf⟩

/-- Settles O8, from the fields the decoder reads and from what the completion step does with a rejected word. -/
theorem exactlyTheIllegalWordsAreRejected : Obligations.ExactlyTheIllegalWordsAreRejected := by
  refine ⟨decode_rejects_iff, fun s h => ?_⟩
  rcases perform_cases s with ⟨i, hok, -⟩ | ⟨-, -, hp⟩
  · obtain ⟨r, herr⟩ := (decode_rejects_iff _).2 h
    exact absurd (herr.symm.trans hok) nofun
  · exact hp

end Sys2Proof.Machine

/-! ## The configuration check of BUILD (R122) -/

namespace Sys2Proof.Machine

open Function (minimalPeriod IsPeriodicPt)

theorem returnsToOneFirstAt_iff {m p n e : Nat} : returnsToOneFirstAt m p n e = true ↔
    0 < n ∧ (xtime m p)^[n] e = 1 ∧ ∀ k, 0 < k → k < n → (xtime m p)^[k] e ≠ 1 := by
  induction n, e using returnsToOneFirstAt.induct m p with
  | case1 => simp [returnsToOneFirstAt]
  | case2 e =>
    simp only [returnsToOneFirstAt, beq_iff_eq, Function.iterate_one, Nat.one_pos, true_and, iff_self_and]
    intro _ k hk hk1
    omega
  | case3 n e ih =>
    have hsplit : (∀ k, 0 < k → k < n + 2 → (xtime m p)^[k] e ≠ 1) ↔
        xtime m p e ≠ 1 ∧ ∀ k, 0 < k → k < n + 1 → (xtime m p)^[k] (xtime m p e) ≠ 1 := by
      constructor
      · exact fun h => ⟨h 1 Nat.one_pos (by omega), fun k _ hk => h (k + 1) k.succ_pos (by omega)⟩
      · rintro ⟨h1, h⟩ (_ | _ | k) hpos hk
        · exact absurd hpos (lt_irrefl 0)
        · exact h1
        · exact h (k + 1) k.succ_pos (by omega)
    rw [hsplit, returnsToOneFirstAt, Bool.and_eq_true, bne_iff_ne, ih, Function.iterate_succ_apply]
    simp only [Nat.succ_pos, true_and]
    exact and_left_comm

theorem groupOrder_pos {m : Nat} (hm : 1 ≤ m) : 0 < groupOrder m := Nat.sub_pos_of_lt (Nat.one_lt_two_pow (by omega))

/-- Q is the period of 1 under xtime when the powers of α first return to 1 at Q. -/
theorem minimalPeriod_of_primitive {m p : Nat} (h : primitive m p = true) :
    minimalPeriod (xtime m p) 1 = groupOrder m := by
  obtain ⟨hQ, hreturn, hfirst⟩ := returnsToOneFirstAt_iff.1 h
  have hperiodic : IsPeriodicPt (xtime m p) (groupOrder m) 1 := hreturn
  refine (hperiodic.minimalPeriod_le hQ).antisymm (not_lt.1 fun hlt => ?_)
  exact hfirst _ (hperiodic.minimalPeriod_pos hQ) hlt Function.iterate_minimalPeriod

theorem xtime_zero {m : Nat} (p : Nat) : xtime m p 0 = 0 := by simp [xtime]

/-- Zero is a fixed point of xtime, so a sequence of powers that comes back to 1 never meets it. -/
theorem alphaPow_ne_zero {m p n k : Nat} (hn : alphaPow m p n = 1) (hk : k ≤ n) : alphaPow m p k ≠ 0 := by
  intro h
  rw [alphaPow_eq_iterate] at hn h
  rw [← Nat.sub_add_cancel hk, Function.iterate_add_apply, h, Function.iterate_fixed (xtime_zero p)] at hn
  exact absurd hn zero_ne_one

/-- R122(d) read literally is the model's check for the first return to 1 (log 7): below a first return the powers are
distinct, and distinct powers do not return early. -/
theorem primitive_iff {m : Nat} (p : Nat) (hm : 1 ≤ m) : primitive m p = true ↔
    (∀ k, k < groupOrder m → alphaPow m p k ≠ 0) ∧
    (∀ i j, i < groupOrder m → j < groupOrder m → alphaPow m p i = alphaPow m p j → i = j) ∧
    alphaPow m p (groupOrder m) = 1 := by
  constructor
  · intro h
    have hperiod := minimalPeriod_of_primitive h
    have hreturn : alphaPow m p (groupOrder m) = 1 := by
      rw [alphaPow_eq_iterate, ← hperiod, Function.iterate_minimalPeriod]
    refine ⟨fun k hk => alphaPow_ne_zero hreturn hk.le, fun i j hi hj hij => ?_, hreturn⟩
    rw [alphaPow_eq_iterate, alphaPow_eq_iterate] at hij
    rw [← hperiod] at hi hj
    exact Function.iterate_injOn_Iio_minimalPeriod hi hj hij
  · rintro ⟨-, hdistinct, hreturn⟩
    have hQ := groupOrder_pos hm
    refine returnsToOneFirstAt_iff.2 ⟨hQ, alphaPow_eq_iterate m p _ ▸ hreturn, fun k hk hlt hone => ?_⟩
    exact hk.ne' (hdistinct k 0 hlt hQ ((alphaPow_eq_iterate m p k).trans hone))

/-- BUILD's check is R122's valid_config, condition by condition. -/
theorem validConfig_iff (m p base : Nat) : validConfig m p base = true ↔ ConfigIsValid m p base := by
  simp only [validConfig, ConfigIsValid, Bool.and_eq_true, decide_eq_true_eq, and_assoc, Nat.shiftRight_eq_div_pow]
  refine and_congr_right fun hm => ?_
  rw [primitive_iff p hm, Nat.le_one_iff_eq_zero_or_eq_one]
  rfl

/-! ## The control commands and LI (R120, R121, R148) -/

theorem ruleBuild_error {s : State} (h : validConfig s.cfgM.toNat s.cfgPoly.toNat s.cfgBase.toNat ≠ true) :
    ruleBuild s = .error .config := by
  simp [ruleBuild, h]

/-- Settles O16: BUILD's rule succeeds exactly under its check, and the check is valid_config. -/
theorem buildAcceptsExactlyValidConfigurations : Obligations.BuildAcceptsExactlyValidConfigurations := by
  intro s
  rw [← validConfig_iff]
  exact ⟨fun hv => exec_of_ok (i := .build) (ruleBuild_ok.2 ⟨hv, rfl⟩),
    fun hv => exec_of_error (i := .build) (ruleBuild_error hv)⟩

/-- Settles O15: the rules of NOP and LI have no error. -/
theorem nopAndLiResults : Obligations.NopAndLiResults :=
  ⟨fun _ => exec_of_ok rfl, fun _ _ _ => exec_of_ok rfl⟩

end Sys2Proof.Machine

/-! ## Field scalar commands (R140 to R146, R149 to R155) -/

namespace Sys2Proof.Machine

/-- The scalar sources that a field command reads as field elements (R140). An exponent is not one (R153, R154). -/
def fieldSources : Instr → List SReg
  | .gadd _ a b | .gmul _ a b | .gdiv _ a b => [a, b]
  | .ginv _ a | .gpow _ a _ | .glog _ a => [a]
  | _ => []

/-- The source that a field command inverts or takes the logarithm of (R143, R144, R146). -/
def domainSource : Instr → Option SReg
  | .gdiv _ _ b => some b
  | .ginv _ a | .glog _ a => some a
  | _ => none

section
variable {i : Instr} {s : State}

theorem elemsOk_scalars_iff {rs : List SReg} : elemsOk s rs [] = true ↔ ∀ r ∈ rs, s.elemS r := by
  simp [elemsOk_iff]

theorem elemsOk_one {a : SReg} (ha : s.elemS a) : elemsOk s [a] [] = true :=
  elemsOk_scalars_iff.2 (by simpa using ha)

theorem elemsOk_two {a b : SReg} (ha : s.elemS a) (hb : s.elemS b) : elemsOk s [a, b] [] = true :=
  elemsOk_scalars_iff.2 (by simpa using ⟨ha, hb⟩)

/-- The range check follows READY in every field command's rule (R286). -/
theorem rule_of_source_out_of_range (hs : s.ready = true) (h : ¬ ∀ r ∈ fieldSources i, s.elemS r) :
    rule i s = .error .range := by
  rw [← elemsOk_scalars_iff] at h
  cases i with
  | gadd | gmul | gdiv | ginv | gpow | glog =>
    simp only [fieldSources] at h
    simp [rule, ruleGadd, ruleGmul, ruleGdiv, ruleGinv, ruleGpow, ruleGlog, hs, h]
  | _ => exact absurd rfl h

/-- The check for zero follows the range check (R286), and a zero divisor's quotient is not defined for any dividend
(R144). -/
theorem rule_of_zero_domainSource {r : SReg} (hs : s.ready = true) (h : ∀ r ∈ fieldSources i, s.elemS r)
    (hr : domainSource i = some r) (hzero : s.readS r = 0) : rule i s = .error .domain := by
  rw [← elemsOk_scalars_iff] at h
  cases i with
  | gdiv | ginv | glog =>
    obtain rfl := Option.some.inj hr
    simp only [fieldSources] at h
    simp [rule, ruleGdiv, ruleGinv, ruleGlog, hs, h, hzero]
  | _ => cases hr

end

/-- Settles O20: GADD and GMUL have only the range check after READY. -/
theorem addAndMultiplyResults : Obligations.AddAndMultiplyResults := by
  intro s rd a b hs
  refine ⟨fun ha hb => ?_, fun hrange => ?_⟩
  · have helems := elemsOk_two ha hb
    exact ⟨exec_of_ok (i := .gadd rd a b) (ruleGadd_ok.2 ⟨hs, helems, rfl⟩),
      exec_of_ok (i := .gmul rd a b) (ruleGmul_ok.2 ⟨hs, helems, rfl⟩)⟩
  · constructor <;> exact exec_of_error (rule_of_source_out_of_range hs (by simpa [fieldSources] using hrange))

/-- Settles O21: the checks of GINV and GDIV are READY, range and zero, in that order. -/
theorem inverseAndDivideResults : Obligations.InverseAndDivideResults := by
  intro s rd a b hs
  refine ⟨fun hb hy => ?_, fun hb hy => ?_, fun hrange => ?_, fun ha hb hy => ?_, fun ha hb hy => ?_, fun hrange => ?_⟩
  · exact exec_of_ok (i := .ginv rd b) (ruleGinv_ok.2 ⟨hs, elemsOk_one hb, hy, rfl⟩)
  · exact exec_of_error (rule_of_zero_domainSource hs (by simpa [fieldSources] using hb) rfl hy)
  · exact exec_of_error (rule_of_source_out_of_range hs (by simpa [fieldSources] using hrange))
  · exact exec_of_ok (i := .gdiv rd a b) (ruleGdiv_ok.2 ⟨hs, elemsOk_two ha hb, hy, rfl⟩)
  · exact exec_of_error (rule_of_zero_domainSource hs (by simpa [fieldSources] using ⟨ha, hb⟩) rfl hy)
  · exact exec_of_error (rule_of_source_out_of_range hs (by simpa [fieldSources] using hrange))

/-- Settles O22: the base of GPOW and the source of GLOG are checked, an exponent is not. -/
theorem powerExpAndLogResults : Obligations.PowerExpAndLogResults := by
  intro s rd a b hs
  refine ⟨fun ha => ?_, fun hrange => ?_, ?_, fun ha hx => ?_, fun ha hx => ?_, fun hrange => ?_⟩
  · exact exec_of_ok (i := .gpow rd a b) (ruleGpow_ok.2 ⟨hs, elemsOk_one ha, rfl⟩)
  · exact exec_of_error (rule_of_source_out_of_range hs (by simpa [fieldSources] using hrange))
  · exact exec_of_ok (i := .gexp rd b) (ruleGexp_ok.2 ⟨hs, rfl⟩)
  · exact exec_of_ok (i := .glog rd a) (ruleGlog_ok.2 ⟨hs, elemsOk_one ha, hx, rfl⟩)
  · exact exec_of_error (rule_of_zero_domainSource hs (by simpa [fieldSources] using ha) rfl hx)
  · exact exec_of_error (rule_of_source_out_of_range hs (by simpa [fieldSources] using hrange))

end Sys2Proof.Machine

/-! ## Polynomial move commands (R170 to R177) -/

namespace Sys2Proof.Machine

section
variable {s : State}

theorem rulePget_error {rd : SReg} {pa : PReg} {b : SReg} (h : s.lenP pa ≤ s.intS b) :
    rulePget rd pa b s = .error .index :=
  if_pos h

theorem rulePput_error {pd : PReg} {a b : SReg} (h : s.lenP pd ≤ s.intS a) : rulePput pd a b s = .error .index :=
  if_pos h

/-- Replacing the element at a place that exists changes no other place. -/
theorem set_getD {p : Poly} {i : Nat} (hi : i < p.length) (v : Elem) (j : Nat) :
    (p.set i v).getD j 0 = if j = i then v else p.getD j 0 := by
  simp only [List.getD_eq_getElem?_getD, List.getElem?_set]
  by_cases h : j = i
  · subst h
    simp [hi]
  · rw [if_neg (Ne.symm h), if_neg h]

/-- Below the new length setLen keeps the old elements and fills with 0 where there is none (R26). -/
theorem setLen_getD_of_lt {n j : Nat} (p : Poly) (hj : j < n) :
    (setLen n p).getD j 0 = if j < p.length then p.getD j 0 else 0 := by
  rw [setLen_getD, if_pos hj]
  split
  · rfl
  · exact List.getD_eq_default _ _ (by omega)

/-- strip takes off a run of zeros (R177). -/
theorem exists_replicate_append_strip (p : Poly) : ∃ z, p = List.replicate z 0 ++ strip p := by
  have hzeros : ∀ c ∈ p.takeWhile (fun a => a == 0), c = 0 := fun c hc => by simpa using List.mem_takeWhile_imp hc
  refine ⟨(p.takeWhile fun a => a == 0).length, ?_⟩
  rw [strip, ← List.eq_replicate_of_mem hzeros, List.takeWhile_append_dropWhile]

/-- The run that strip takes off is the longest one: no zero is left in front (R177). -/
theorem strip_head?_ne_zero (p : Poly) : (strip p).head? ≠ some 0 := by
  intro h
  have hhead := List.head?_dropWhile_not (fun a => a == 0) p
  rw [← strip, h] at hhead
  exact absurd hhead nofun

end

/-- Settles O23: the index is checked against the length and nothing else is. -/
theorem getAndPutElement : Obligations.GetAndPutElement := by
  intro s rd a b k
  refine ⟨fun hi => ?_, fun hi => ?_, fun hi => ?_, fun hi => ?_⟩
  · exact exec_of_ok (rulePget_ok.2 ⟨hi, rfl⟩)
  · exact exec_of_error (rulePget_error hi)
  · exact ⟨_, exec_of_ok (rulePput_ok.2 ⟨hi, rfl⟩), List.length_set, set_getD hi _⟩
  · exact exec_of_error (rulePput_error hi)

/-- Settles O24: a 16-bit scalar is never above PCAP, so PSETLEN has no error. -/
theorem lengthReadAndSet : Obligations.LengthReadAndSet := by
  intro s rd a k
  have hlow : BitVec.ofNat 16 (s.lenP k) = BitVec.ofNat 16 ((s.readP k).length % 65536) :=
    BitVec.eq_of_toNat_eq (Nat.mod_mod _ _).symm
  refine ⟨hlow ▸ exec_of_ok rfl, _, ?_, setLen_length _ _, fun _ hj => setLen_getD_of_lt _ hj⟩
  exact exec_of_ok (rulePsetlen_ok.2 ⟨toNat_le_pcap _, rfl⟩)

/-- Settles O25: the rules of PMOV, PREV and PSTRIP have no error, and strip takes off the longest run of zeros. -/
theorem copyReverseAndStrip : Obligations.CopyReverseAndStrip := by
  intro s pd pa
  obtain ⟨z, hz⟩ := exists_replicate_append_strip (s.readP pa)
  refine ⟨exec_of_ok rfl, ?_, ?_⟩
  · exact ⟨_, exec_of_ok rfl, List.length_reverse, fun i hi => congrFun (List.getD_reverse i hi) 0⟩
  · exact ⟨z, _, exec_of_ok rfl, hz, strip_head?_ne_zero _⟩

end Sys2Proof.Machine

/-! ## Polynomial arithmetic (R200 to R211) -/

namespace Sys2Proof.Machine

/-! ### The product (R203) -/

section
variable (F : Gf)

theorem gsum_cons (x : Elem) (l : List Elem) : gsum (x :: l) = gadd x (gsum l) := by
  have hassoc : Std.Associative gadd := ⟨gadd_assoc⟩
  rw [gsum, List.foldl_cons, gadd_comm, List.foldl_assoc, gsum]

theorem gsum_map_zero {ι : Type} (l : List ι) : gsum (l.map fun _ => 0) = 0 := by
  induction l with
  | nil => rfl
  | cons _ l ih => rw [List.map_cons, gsum_cons, ih, gadd_zero]

/-- scale multiplies place by place, a place past the end holding 0. -/
theorem scale_getD (c : Elem) (s : Poly) (k : Nat) : (scale F c s).getD k 0 = gmul F c (s.getD k 0) := by
  rw [scale, ← List.getD_map (f := gmul F c), gmul_zero]

/-- Each place of the convolution is the sum over the pairs of places that add up to it (R203): the head of a meets b's place
k, and the rest of a meets the places before it. -/
theorem convolve_getD (a b : Poly) (k : Nat) : (convolve F b a).getD k 0 =
    gsum ((List.range (k + 1)).map fun i => gmul F (a.getD i 0) (b.getD (k - i) 0)) := by
  induction a generalizing k with
  | nil => simp only [convolve, List.getD_nil, zero_gmul, gsum_map_zero]
  | cons x a ih =>
    rw [convolve, addAtFront_getD, scale_getD, List.range_succ_eq_map, List.map_cons, gsum_cons, List.map_map]
    cases k with
    | zero => rfl
    | succ k => simp only [List.getD_cons_succ, ih, Function.comp_def, Nat.succ_eq_add_one, Nat.add_sub_add_right,
        List.getD_cons_zero, Nat.sub_zero]

theorem pmul_getD (a b : Poly) (k : Nat) : (pmul F a b).getD k 0 =
    gsum ((List.range (k + 1)).map fun i => gmul F (a.getD i 0) (b.getD (k - i) 0)) := by
  rcases eq_or_ne b [] with rfl | hb
  · simp only [pmul_nil_right, List.getD_nil, gmul_zero, gsum_map_zero]
  · rw [pmul, if_neg hb, convolve_getD]

end

/-- Settles O29: lengths and places of the product, by induction on the first operand. -/
theorem productCoefficientsAreConvolutionSums : Obligations.ProductCoefficientsAreConvolutionSums := by
  intro F a b
  refine ⟨?_, pmul_length F a b, pmul_getD F a b⟩
  rintro (rfl | rfl)
  · exact pmul_nil_left F b
  · exact pmul_nil_right F a

/-! ### Scaled addition and division (R204, R205) -/

section
variable (F : Gf)

/-- Two sequences of one length combined place by place, when two absent places give an absent one. -/
theorem zipWith_getD {f : Elem → Elem → Elem} (hf : f 0 0 = 0) {s t : Poly} (hl : s.length = t.length) (k : Nat) :
    (List.zipWith f s t).getD k 0 = f (s.getD k 0) (t.getD k 0) := by
  by_cases hk : k < s.length
  · have hkt : k < t.length := hl ▸ hk
    rw [List.getD_eq_getElem _ _ hk, List.getD_eq_getElem _ _ hkt, List.getD_eq_getElem _ _ (by simp [hk, hkt]),
      List.getElem_zipWith]
  · have hkt : t.length ≤ k := hl ▸ not_lt.1 hk
    rw [List.getD_eq_default s _ (not_lt.1 hk), List.getD_eq_default t _ hkt, hf,
      List.getD_eq_default _ _ (by simp [hkt])]

/-- Padding on the left changes no place counted from the constant end. -/
theorem padLeft_reverse_getD (n : Nat) (s : Poly) (k : Nat) : (padLeft n s).reverse.getD k 0 = s.reverse.getD k 0 := by
  rw [padLeft, zeros, List.reverse_append, List.reverse_replicate]
  by_cases h : k < s.reverse.length
  · exact List.getD_append _ _ _ _ h
  · rw [List.getD_append_right _ _ _ _ (not_lt.1 h), List.getD_eq_default s.reverse _ (not_lt.1 h),
      List.getD_eq_getElem?_getD, List.getElem?_getD_replicate_default_eq]

/-- Counted from the constant end, paddsb adds place by place, an absent place counting as 0 (R205). -/
theorem paddsb_reverse_getD (a b : Poly) (c : Elem) (k : Nat) : (paddsb F a b c).reverse.getD k 0 =
    gadd (a.reverse.getD k 0) (gmul F c (b.reverse.getD k 0)) := by
  rw [paddsb, List.reverse_zipWith (by simp), zipWith_getD (by simp only [gmul_zero, gadd_zero]) (by simp),
    padLeft_reverse_getD, padLeft_reverse_getD]

variable {F}

/-- Division by an empty or zero-led denominator is E_DOMAIN, whatever the numerator (R204). -/
theorem pdivmod_of_empty_or_zero_led {a b : Poly} (hb : b = [] ∨ b.head? = some 0) :
    pdivmod F a b = .error .domain := by
  rcases pdivmod_cases F a b with ⟨-, h⟩ | ⟨_, _, hne, hhead, -⟩
  · exact h
  · exact absurd hb (not_or.2 ⟨hne, hhead⟩)

/-- A numerator shorter than the denominator is all remainder (R204). -/
theorem pdivmod_of_length_lt {a b : Poly} (hhead : b.head? ≠ some 0) (h : a.length < b.length) :
    pdivmod F a b = .ok ([], zeros (b.length - 1 - a.length) ++ a) := by
  cases b with
  | nil => exact absurd h (Nat.not_lt_zero _)
  | cons b0 bt => rw [pdivmod, if_neg (fun h0 => hhead (congrArg some h0)), if_pos h]

end

/-! ### The commands (R200, R206 to R211) -/

/-- The scalar and polynomial sources that R200 checks, for the commands that have no check between READY and this one. -/
def polyArithSources : Instr → List SReg × List PReg
  | .peval _ k b | .pevala _ k b => ([b], [k])
  | .pevalc _ k b c => ([b, c], [k])
  | .pdiv _ pa pb _ => ([], [pa, pb])
  | .paddsb _ pa pb c => ([c], [pa, pb])
  | _ => ([], [])

section
variable {i : Instr} {s : State} {b c : SReg} {k pa pb pc pd : PReg}

theorem elemsOk_poly_scalar_iff : elemsOk s [b] [k] = true ↔ s.elemsP k ∧ s.elemS b := by
  simp [elemsOk_iff, and_comm]

theorem elemsOk_poly_two_scalars_iff : elemsOk s [b, c] [k] = true ↔ s.elemsP k ∧ s.elemS b ∧ s.elemS c := by
  simp [elemsOk_iff, and_comm]

theorem elemsOk_two_polys_iff : elemsOk s [] [pa, pb] = true ↔ s.elemsP pa ∧ s.elemsP pb := by
  simp [elemsOk_iff]

theorem elemsOk_scalar_two_polys_iff : elemsOk s [c] [pa, pb] = true ↔ s.elemS c ∧ s.elemsP pa ∧ s.elemsP pb := by
  simp [elemsOk_iff]

/-- The range check follows READY (R286), in PDIV's rule after R96(e)'s check. -/
theorem rule_of_polyArith_out_of_range (hs : s.ready = true) (hwf : i.wf = true)
    (h : ¬ elemsOk s (polyArithSources i).1 (polyArithSources i).2 = true) : rule i s = .error .range := by
  cases i with
  | peval | pevala | pevalc | paddsb =>
    simp only [polyArithSources] at h
    simp [rule, rulePeval, rulePevala, rulePevalc, rulePaddsb, hs, h]
  | pdiv =>
    simp only [polyArithSources] at h
    simp [rule, rulePdiv, hs, h, of_decide_eq_true hwf]
  | _ => exact absurd rfl h

theorem rulePmul_length_error (hs : s.ready = true) (h : Config.pcap + 1 < s.lenP pa + s.lenP pb) :
    rulePmul pd pa pb s = .error .length := by
  simp [rulePmul, hs, h]

theorem rulePmul_range_error (hs : s.ready = true) (hlen : s.lenP pa + s.lenP pb ≤ Config.pcap + 1)
    (h : ¬ elemsOk s [] [pa, pb] = true) : rulePmul pd pa pb s = .error .range := by
  simp [rulePmul, hs, not_lt.2 hlen, h]

theorem rulePdiv_illegal_error (h : pd = pc) : rulePdiv pd pa pb pc s = .error .illegal := if_pos h

theorem rulePdiv_domain_error (hs : s.ready = true) (hne : pd ≠ pc) (helems : elemsOk s [] [pa, pb] = true)
    (hb : s.readP pb = [] ∨ (s.readP pb).head? = some 0) : rulePdiv pd pa pb pc s = .error .domain := by
  simp [rulePdiv, hs, hne, helems, pdivmod_of_empty_or_zero_led hb]

end

/-- Settles O26: each evaluation command has only the range check after READY. -/
theorem evaluationCommandResults : Obligations.EvaluationCommandResults := by
  intro s rd b c k hs
  refine ⟨fun hk hb => ?_, fun hrange => ?_, fun hrange => ?_⟩
  · have helems := elemsOk_poly_scalar_iff.2 ⟨hk, hb⟩
    refine ⟨exec_of_ok (i := .peval rd k b) (rulePeval_ok.2 ⟨hs, helems, rfl⟩),
      exec_of_ok (i := .pevala rd k b) (rulePevala_ok.2 ⟨hs, helems, rfl⟩), fun hc => ?_⟩
    exact exec_of_ok (i := .pevalc rd k b c) (rulePevalc_ok.2 ⟨hs, elemsOk_poly_two_scalars_iff.2 ⟨hk, hb, hc⟩, rfl⟩)
  · have hbad := mt elemsOk_poly_scalar_iff.1 hrange
    constructor <;> exact exec_of_error (rule_of_polyArith_out_of_range hs rfl hbad)
  · exact exec_of_error (rule_of_polyArith_out_of_range hs rfl (mt elemsOk_poly_two_scalars_iff.1 hrange))

/-- Settles O28: the length check of PMUL stands between READY and the range check. -/
theorem multiplyCommandResult : Obligations.MultiplyCommandResult := by
  intro s pd pa pb hs
  refine ⟨fun hlen ha hb => ?_, fun hlen => ?_, fun hlen hrange => ?_⟩
  · exact exec_of_ok (i := .pmul pd pa pb) (rulePmul_ok.2 ⟨hs, hlen, elemsOk_two_polys_iff.2 ⟨ha, hb⟩, rfl⟩)
  · exact exec_of_error (i := .pmul pd pa pb) (rulePmul_length_error hs hlen)
  · exact exec_of_error (i := .pmul pd pa pb) (rulePmul_range_error hs hlen (mt elemsOk_two_polys_iff.1 hrange))

/-- Settles O30: PDIV's checks are R96(e), READY, range and the denominator's first element, in that order. -/
theorem divideCommandResult : Obligations.DivideCommandResult := by
  intro s pd pa pb pc hs a b
  refine ⟨fun hne ha hb hnil hhead => ?_, fun hne ha hb hzero => ?_, fun hne hrange => ?_, fun heq => ?_⟩
  · obtain ⟨hzero, -⟩ | ⟨q, r, -, -, hdiv, hr, hq⟩ := pdivmod_cases s.gf a b
    · exact absurd hzero (not_or.2 ⟨hnil, hhead⟩)
    refine ⟨q, r, hdiv, ?_, hr, hq, fun hshort => ?_⟩
    · exact exec_of_ok (i := .pdiv pd pa pb pc)
        (rulePdiv_ok.2 ⟨hne, hs, elemsOk_two_polys_iff.2 ⟨ha, hb⟩, q, r, hdiv, rfl⟩)
    · exact Prod.mk.inj (Except.ok.inj (hdiv.symm.trans (pdivmod_of_length_lt hhead hshort)))
  · exact exec_of_error (i := .pdiv pd pa pb pc)
      (rulePdiv_domain_error hs hne (elemsOk_two_polys_iff.2 ⟨ha, hb⟩) hzero)
  · exact exec_of_error (rule_of_polyArith_out_of_range hs (decide_eq_true hne) (mt elemsOk_two_polys_iff.1 hrange))
  · exact exec_of_error (i := .pdiv pd pa pb pc) (rulePdiv_illegal_error heq)

/-- Settles O33: places past the result's end are 0 by List.getD's default, all others by paddsb_reverse_getD. -/
theorem scaledAddCommandResult : Obligations.ScaledAddCommandResult := by
  intro s pd pa pb c hs a b
  refine ⟨fun hc ha hb => ?_, fun hrange => ?_⟩
  · have helems := elemsOk_scalar_two_polys_iff.2 ⟨hc, ha, hb⟩
    refine ⟨_, exec_of_ok (i := .paddsb pd pa pb c) (rulePaddsb_ok.2 ⟨hs, helems, rfl⟩), paddsb_length _ _ _ _,
      fun k => ?_⟩
    split_ifs with hk
    · exact paddsb_reverse_getD s.gf a b (s.readS c) k
    · exact List.getD_eq_default _ _ (List.length_reverse.trans_le (not_lt.1 hk))
  · exact exec_of_error (rule_of_polyArith_out_of_range hs rfl (mt elemsOk_scalar_two_polys_iff.1 hrange))

end Sys2Proof.Machine

/-! ## The arithmetic of a built field (R123, R141, R142, R147) -/

namespace Sys2Proof.Machine

/-! ### xtime is linear, and it keeps field elements (R123) -/

theorem xtime_xor (m p a b : Nat) : xtime m p (a ^^^ b) = xtime m p a ^^^ xtime m p b := by
  simp only [xtime, Nat.shiftLeft_xor_distrib, Nat.testBit_xor]
  cases (a <<< 1).testBit m <;> cases (b <<< 1).testBit m <;>
    simp [Nat.xor_comm, Nat.xor_left_comm]

theorem xtime_iterate_xor (m p k a b : Nat) :
    (xtime m p)^[k] (a ^^^ b) = (xtime m p)^[k] a ^^^ (xtime m p)^[k] b := by
  induction k with
  | zero => rfl
  | succ k ih => rw [xtime_iterate_succ, xtime_iterate_succ, xtime_iterate_succ, ih, xtime_xor]

/-- The shifted element and p both have bit m as their highest, so adding p clears it. -/
theorem xtime_lt {m p e : Nat} (hp : p / 2 ^ m = 1) (he : e < 2 ^ m) : xtime m p e < 2 ^ m := by
  have hshift : e <<< 1 < 2 ^ (m + 1) := by rw [Nat.shiftLeft_eq, pow_succ]; omega
  have hpdeg : p < 2 ^ (m + 1) := by rw [pow_succ, mul_comm]; exact Nat.lt_mul_of_div_lt (by omega) (by positivity)
  have hpbit : p.testBit m = true := by simp [Nat.testBit_eq_decide_div_mod_eq, hp]
  rw [xtime]
  refine Nat.lt_pow_two_of_testBit _ fun i hi => ?_
  rcases hi.eq_or_lt with rfl | hlt
  · split_ifs with hbit
    · rw [Nat.testBit_xor, hbit, hpbit, Bool.xor_self]
    · simpa using hbit
  · have hpow : 2 ^ (m + 1) ≤ 2 ^ i := Nat.pow_le_pow_right (by omega) hlt
    have hshift0 := Nat.testBit_lt_two_pow (hshift.trans_le hpow)
    have hp0 := Nat.testBit_lt_two_pow (hpdeg.trans_le hpow)
    split_ifs
    · rw [Nat.testBit_xor, hshift0, hp0, Bool.xor_self]
    · exact hshift0

theorem xtime_iterate_lt {m p e : Nat} (hp : p / 2 ^ m = 1) (he : e < 2 ^ m) (k : Nat) :
    (xtime m p)^[k] e < 2 ^ m := by
  induction k with
  | zero => exact he
  | succ k ih => rw [xtime_iterate_succ]; exact xtime_lt hp ih

theorem alphaPow_add (m p i j : Nat) : alphaPow m p (i + j) = (xtime m p)^[i] (alphaPow m p j) := by
  rw [alphaPow_eq_iterate, alphaPow_eq_iterate, Function.iterate_add_apply]

theorem gadd_gadd_gadd_comm (a b c d : Elem) : gadd (gadd a b) (gadd c d) = gadd (gadd a c) (gadd b d) := by
  simp only [gadd]
  ac_rfl

theorem gmul_comm (F : Gf) (a b : Elem) : gmul F a b = gmul F b a := by
  simp only [gmul, or_comm, Nat.add_comm]

/-- The base of a configuration plays no part in its field (R122(c)). -/
theorem configIsValid_base_zero {m p base : Nat} (h : ConfigIsValid m p base) : ConfigIsValid m p 0 := by
  obtain ⟨hm, hp, -, hpowers⟩ := h
  exact ⟨hm, hp, .inl rfl, hpowers⟩

theorem zero_elem_lt (m : Nat) : (0 : Elem).toNat < 2 ^ m := Nat.two_pow_pos m

section
variable {m p : Nat} (hv : ConfigIsValid m p 0)
include hv

/-! ### The nonzero elements are the powers of α (R122, R123) -/

theorem two_pow_le_elem_range : 2 ^ m ≤ 2 ^ 16 := by
  obtain ⟨⟨-, hm⟩, -⟩ := hv
  exact Nat.pow_le_pow_right (by omega) hm

theorem one_elem_lt : (1 : Elem).toNat < 2 ^ m := by
  obtain ⟨⟨hm, -⟩, -⟩ := hv
  exact Nat.one_lt_two_pow (by omega)

theorem alphaPow_lt (k : Nat) : alphaPow m p k < 2 ^ m := by
  have hone := one_elem_lt hv
  obtain ⟨-, hp, -⟩ := hv
  rw [alphaPow_eq_iterate]
  exact xtime_iterate_lt hp hone k

/-- The powers of α repeat after Q steps. -/
theorem alphaPow_mod (k : Nat) : alphaPow m p (k % groupOrder m) = alphaPow m p k := by
  obtain ⟨⟨hm, -⟩, -, -, hpowers⟩ := hv
  rw [alphaPow_eq_iterate, alphaPow_eq_iterate, ← minimalPeriod_of_primitive ((primitive_iff p hm).2 hpowers),
    Function.iterate_mod_minimalPeriod_eq]

theorem alphaPow_pos (k : Nat) : 0 < alphaPow m p k := by
  obtain ⟨⟨hm, -⟩, -, -, hne, -⟩ := id hv
  rw [← alphaPow_mod hv]
  exact Nat.pos_of_ne_zero (hne _ (Nat.mod_lt _ (groupOrder_pos hm)))

/-- Q distinct nonzero powers are all Q nonzero numbers below 2^m. -/
theorem exists_alphaPow_eq {n : Nat} (hpos : 0 < n) (hn : n < 2 ^ m) : ∃ k < groupOrder m, alphaPow m p k = n := by
  obtain ⟨-, -, -, -, hinj, -⟩ := id hv
  have himage : (Finset.range (groupOrder m)).image (alphaPow m p) = Finset.Ico 1 (2 ^ m) := by
    refine Finset.eq_of_subset_of_card_le (fun x hx => ?_) ?_
    · obtain ⟨k, -, rfl⟩ := Finset.mem_image.1 hx
      exact Finset.mem_Ico.2 ⟨alphaPow_pos hv k, alphaPow_lt hv k⟩
    · have hinjOn : Set.InjOn (alphaPow m p) (Finset.range (groupOrder m)) := fun i hi j hj =>
        hinj i j (Finset.mem_range.1 hi) (Finset.mem_range.1 hj)
      rw [Finset.card_image_of_injOn hinjOn, Finset.card_range, Nat.card_Ico, groupOrder]
  simpa using himage.symm.subset (Finset.mem_Ico.2 ⟨hpos, hn⟩)

/-- A field element is 0 or a power of α. -/
theorem elem_cases {a : Elem} (ha : a.toNat < 2 ^ m) : a = 0 ∨ ∃ k, a.toNat = alphaPow m p k := by
  rcases Nat.eq_zero_or_pos a.toNat with h0 | hpos
  · exact .inl (BitVec.eq_of_toNat_eq h0)
  · obtain ⟨k, -, hk⟩ := exists_alphaPow_eq hv hpos ha
    exact .inr ⟨k, hk.symm⟩

/-! ### The tables (R123) -/

theorem expAt_toNat {k : Nat} (hk : k < groupOrder m) : ((builtGf m p).expAt k).toNat = alphaPow m p k := by
  rw [Gf.expAt, builtGf_exp, List.getD_eq_getElem?_getD, buildExp_getElem? m p k hk, Option.getD_some,
    BitVec.toNat_ofNat, Nat.mod_eq_of_lt ((alphaPow_lt hv k).trans_le (two_pow_le_elem_range hv))]

theorem expAt_mod_toNat (k : Nat) : ((builtGf m p).expAt (k % groupOrder m)).toNat = alphaPow m p k := by
  obtain ⟨⟨hm, -⟩, -⟩ := id hv
  rw [expAt_toNat hv (Nat.mod_lt _ (groupOrder_pos hm)), alphaPow_mod hv]

theorem alpha_toNat (k : Nat) : (alpha (builtGf m p) k).toNat = alphaPow m p k := expAt_mod_toNat hv k

theorem alpha_lt (k : Nat) : (alpha (builtGf m p) k).toNat < 2 ^ m := (alpha_toNat hv k).trans_lt (alphaPow_lt hv k)

/-- LOG is the inverse of EXP: its entry for a nonzero element is a place where EXP holds that element. -/
theorem alphaPow_logOf {a : Elem} (h0 : a ≠ 0) (ha : a.toNat < 2 ^ m) :
    alphaPow m p ((builtGf m p).logOf a) = a.toNat := by
  have hpos : 0 < a.toNat := Nat.pos_of_ne_zero fun h => h0 (BitVec.eq_of_toNat_eq h)
  obtain ⟨k, hk, hak⟩ := exists_alphaPow_eq hv hpos ha
  have hmem : a ∈ buildExp m p := by
    refine List.mem_of_getElem? ((buildExp_getElem? m p k hk).trans ?_)
    rw [hak, BitVec.ofNat_toNat, BitVec.setWidth_eq]
  have hidx : (buildExp m p).idxOf a < groupOrder m := by simpa using List.idxOf_lt_length_of_mem hmem
  have hlog : (builtGf m p).logOf a = (buildExp m p).idxOf a := by
    have hword : (buildExp m p).idxOf a < 2 ^ 16 :=
      hidx.trans_le ((Nat.sub_le _ _).trans (two_pow_le_elem_range hv))
    rw [Gf.logOf, builtGf_log, List.getD_eq_getElem?_getD, buildLog_getElem? m _ _ ha, if_neg hpos.ne',
      BitVec.ofNat_toNat, BitVec.setWidth_eq, Option.getD_some, BitVec.toNat_ofNat, Nat.mod_eq_of_lt hword]
  rw [hlog, ← expAt_toNat hv hidx, Gf.expAt, builtGf_exp, List.getD_eq_getElem _ _ (by simpa using hidx),
    List.getElem_idxOf]

/-! ### The laws of gmul (R142, R147) -/

/-- Multiplication by α^i is i applications of xtime: the law the others follow from. -/
theorem gmul_toNat_of_power {a b : Elem} {i : Nat} (ha : a.toNat = alphaPow m p i) (hb : b.toNat < 2 ^ m) :
    (gmul (builtGf m p) a b).toNat = (xtime m p)^[i] b.toNat := by
  have ha0 : a ≠ 0 := by
    rintro rfl
    exact (alphaPow_pos hv i).ne ha
  by_cases hb0 : b = 0
  · rw [hb0, gmul_zero]
    exact (Function.iterate_fixed (xtime_zero p) i).symm
  · have hla := alphaPow_logOf hv ha0 (ha ▸ alphaPow_lt hv i)
    have hlb := alphaPow_logOf hv hb0 hb
    rw [gmul, if_neg (not_or.2 ⟨ha0, hb0⟩)]
    calc ((builtGf m p).expAt (((builtGf m p).logOf a + (builtGf m p).logOf b) % groupOrder m)).toNat
        = alphaPow m p ((builtGf m p).logOf b + (builtGf m p).logOf a) := by rw [expAt_mod_toNat hv, Nat.add_comm]
      _ = alphaPow m p (i + (builtGf m p).logOf b) := by
        rw [alphaPow_add, hla, ha, ← alphaPow_add, Nat.add_comm]
      _ = (xtime m p)^[i] b.toNat := by rw [alphaPow_add, hlb]

theorem gmul_lt {a b : Elem} (ha : a.toNat < 2 ^ m) (hb : b.toNat < 2 ^ m) :
    (gmul (builtGf m p) a b).toNat < 2 ^ m := by
  obtain ⟨-, hp, -⟩ := id hv
  rcases elem_cases hv ha with rfl | ⟨i, hi⟩
  · rwa [zero_gmul]
  · rw [gmul_toNat_of_power hv hi hb]
    exact xtime_iterate_lt hp hb i

theorem one_gmul {a : Elem} (ha : a.toNat < 2 ^ m) : gmul (builtGf m p) 1 a = a :=
  BitVec.eq_of_toNat_eq (gmul_toNat_of_power hv (i := 0) rfl ha)

theorem gmul_assoc {a b c : Elem} (ha : a.toNat < 2 ^ m) (hb : b.toNat < 2 ^ m) (hc : c.toNat < 2 ^ m) :
    gmul (builtGf m p) (gmul (builtGf m p) a b) c = gmul (builtGf m p) a (gmul (builtGf m p) b c) := by
  rcases elem_cases hv ha with rfl | ⟨i, hi⟩
  · simp only [zero_gmul]
  rcases elem_cases hv hb with rfl | ⟨j, hj⟩
  · simp only [zero_gmul, gmul_zero]
  have hij : (gmul (builtGf m p) a b).toNat = alphaPow m p (i + j) := by
    rw [gmul_toNat_of_power hv hi hb, hj, alphaPow_add]
  apply BitVec.eq_of_toNat_eq
  rw [gmul_toNat_of_power hv hij hc, gmul_toNat_of_power hv hi (gmul_lt hv hb hc), gmul_toNat_of_power hv hj hc,
    Function.iterate_add_apply]

omit hv in
theorem gadd_lt {a b : Elem} (ha : a.toNat < 2 ^ m) (hb : b.toNat < 2 ^ m) : (gadd a b).toNat < 2 ^ m := by
  rw [gadd, BitVec.toNat_xor]
  exact Nat.xor_lt_two_pow ha hb

theorem gmul_gadd {a b c : Elem} (ha : a.toNat < 2 ^ m) (hb : b.toNat < 2 ^ m) (hc : c.toNat < 2 ^ m) :
    gmul (builtGf m p) a (gadd b c) = gadd (gmul (builtGf m p) a b) (gmul (builtGf m p) a c) := by
  rcases elem_cases hv ha with rfl | ⟨i, hi⟩
  · simp only [zero_gmul, gadd_zero]
  apply BitVec.eq_of_toNat_eq
  rw [gmul_toNat_of_power hv hi (gadd_lt hb hc), gadd, gadd, BitVec.toNat_xor, BitVec.toNat_xor, xtime_iterate_xor,
    gmul_toNat_of_power hv hi hb, gmul_toNat_of_power hv hi hc]

theorem gadd_gmul {a b c : Elem} (ha : a.toNat < 2 ^ m) (hb : b.toNat < 2 ^ m) (hc : c.toNat < 2 ^ m) :
    gmul (builtGf m p) (gadd a b) c = gadd (gmul (builtGf m p) a c) (gmul (builtGf m p) b c) := by
  rw [gmul_comm, gmul_gadd hv hc ha hb, gmul_comm _ c, gmul_comm _ c]

end

end Sys2Proof.Machine

/-! ## The generator polynomial (R231) -/

namespace Sys2Proof.Machine

/-! ### Addition at the front and a step of Horner's rule (R201, R203) -/

theorem addAtFront_nil_right (s : Poly) : addAtFront s [] = s := by cases s <;> rfl

theorem addAtFront_assoc (s t u : Poly) : addAtFront (addAtFront s t) u = addAtFront s (addAtFront t u) := by
  induction s generalizing t u with
  | nil => rfl
  | cons a s ih =>
    cases t with
    | nil => rfl
    | cons b t =>
      cases u with
      | nil => rfl
      | cons c u => simp only [addAtFront, gadd_assoc, ih]

/-- The first coefficient of a product is the product of the first coefficients (R203). -/
theorem pmul_cons_head? (F : Gf) (c d : Elem) (a b : Poly) :
    (pmul F (c :: a) (d :: b)).head? = some (gmul F c d) := by
  simp only [pmul, convolve, scale, addAtFront, List.map_cons, reduceCtorEq, if_false, List.head?_cons, gadd_zero]

theorem addAtFront_elems_lt {m : Nat} {s t : Poly} (hs : ∀ y ∈ s, y.toNat < 2 ^ m) (ht : ∀ y ∈ t, y.toNat < 2 ^ m) :
    ∀ y ∈ addAtFront s t, y.toNat < 2 ^ m := by
  induction s generalizing t with
  | nil => exact ht
  | cons a s ih =>
    cases t with
    | nil => exact hs
    | cons b t =>
      obtain ⟨ha, hs⟩ := List.forall_mem_cons.1 hs
      obtain ⟨hb, ht⟩ := List.forall_mem_cons.1 ht
      exact List.forall_mem_cons.2 ⟨gadd_lt ha hb, ih hs ht⟩

theorem evalD_cons (F : Gf) (r c : Elem) (s : Poly) (x : Elem) :
    evalD F r (c :: s) x = evalD F (gadd (gmul F r x) c) s x := rfl

section
variable {m p : Nat} (hv : ConfigIsValid m p 0) {x : Elem} (hx : x.toNat < 2 ^ m)
include hv

/-! ### Products and generators have field elements only -/

theorem scale_elems_lt {c : Elem} {s : Poly} (hc : c.toNat < 2 ^ m) (hs : ∀ y ∈ s, y.toNat < 2 ^ m) :
    ∀ y ∈ scale (builtGf m p) c s, y.toNat < 2 ^ m :=
  List.forall_mem_map.2 fun y hy => gmul_lt hv hc (hs y hy)

theorem convolve_elems_lt {a b : Poly} (ha : ∀ y ∈ a, y.toNat < 2 ^ m) (hb : ∀ y ∈ b, y.toNat < 2 ^ m) :
    ∀ y ∈ convolve (builtGf m p) b a, y.toNat < 2 ^ m := by
  induction a with
  | nil => exact ha
  | cons h t ih =>
    obtain ⟨hh, ht⟩ := List.forall_mem_cons.1 ha
    exact addAtFront_elems_lt (scale_elems_lt hv hh hb) (List.forall_mem_cons.2 ⟨zero_elem_lt m, ih ht⟩)

theorem pmul_elems_lt {a b : Poly} (ha : ∀ y ∈ a, y.toNat < 2 ^ m) (hb : ∀ y ∈ b, y.toNat < 2 ^ m) :
    ∀ y ∈ pmul (builtGf m p) a b, y.toNat < 2 ^ m := by
  rw [pmul]
  split_ifs
  · exact List.forall_mem_nil _
  · exact convolve_elems_lt hv ha hb

theorem linear_elems_lt (k : Nat) : ∀ y ∈ [1, alpha (builtGf m p) k], y.toNat < 2 ^ m :=
  List.forall_mem_cons.2 ⟨one_elem_lt hv, List.forall_mem_singleton.2 (alpha_lt hv k)⟩

theorem gen_elems_lt (d b : Nat) : ∀ y ∈ gen (builtGf m p) d b, y.toNat < 2 ^ m := by
  induction d with
  | zero => exact List.forall_mem_singleton.2 (one_elem_lt hv)
  | succ d ih => rw [gen_succ]; exact pmul_elems_lt hv ih (linear_elems_lt hv _)

theorem gen_head? (d b : Nat) : (gen (builtGf m p) d b).head? = some 1 := by
  induction d with
  | zero => rfl
  | succ d ih =>
    obtain ⟨t, ht⟩ := List.head?_eq_some_iff.1 ih
    rw [gen_succ, ht, pmul_cons_head?, one_gmul hv (one_elem_lt hv)]

/-! ### Evaluation is multiplicative (R212) -/

include hx

theorem evalD_lt {r : Elem} {s : Poly} (hr : r.toNat < 2 ^ m) (hs : ∀ y ∈ s, y.toNat < 2 ^ m) :
    (evalD (builtGf m p) r s x).toNat < 2 ^ m := by
  induction s generalizing r with
  | nil => exact hr
  | cons c s ih =>
    obtain ⟨hc, hs⟩ := List.forall_mem_cons.1 hs
    exact ih (gadd_lt (gmul_lt hv hr hx) hc) hs

theorem evalD_scale {c r : Elem} {s : Poly} (hc : c.toNat < 2 ^ m) (hr : r.toNat < 2 ^ m)
    (hs : ∀ y ∈ s, y.toNat < 2 ^ m) : evalD (builtGf m p) (gmul (builtGf m p) c r) (scale (builtGf m p) c s) x =
      gmul (builtGf m p) c (evalD (builtGf m p) r s x) := by
  induction s generalizing r with
  | nil => rfl
  | cons y s ih =>
    obtain ⟨hy, hs⟩ := List.forall_mem_cons.1 hs
    have hrx := gmul_lt hv hr hx
    rw [scale, List.map_cons, evalD_cons, gmul_assoc hv hc hr hx, ← gmul_gadd hv hc hrx hy]
    exact ih (gadd_lt hrx hy) hs

theorem evalD_scale_zero {c : Elem} {s : Poly} (hc : c.toNat < 2 ^ m) (hs : ∀ y ∈ s, y.toNat < 2 ^ m) :
    evalD (builtGf m p) 0 (scale (builtGf m p) c s) x = gmul (builtGf m p) c (evalD (builtGf m p) 0 s x) := by
  rw [← evalD_scale hv hx hc (zero_elem_lt m) hs, gmul_zero]

/-- Adding s at the front of a sequence one longer adds x times the value of s: s ends one place early. -/
theorem evalD_addAtFront {r r' : Elem} {s t : Poly} (hlen : t.length = s.length + 1) (hr : r.toNat < 2 ^ m)
    (hr' : r'.toNat < 2 ^ m) (hs : ∀ y ∈ s, y.toNat < 2 ^ m) (ht : ∀ y ∈ t, y.toNat < 2 ^ m) :
    evalD (builtGf m p) (gadd r r') (addAtFront s t) x =
      gadd (gmul (builtGf m p) (evalD (builtGf m p) r s x) x) (evalD (builtGf m p) r' t x) := by
  induction s generalizing r r' t with
  | nil =>
    obtain ⟨c, rfl⟩ := List.length_eq_one_iff.1 hlen
    simp only [addAtFront, evalD_cons, evalD_nil, gadd_gmul hv hr hr' hx, gadd_assoc]
  | cons y s ih =>
    cases t with
    | nil => cases hlen
    | cons c t =>
      obtain ⟨hy, hs⟩ := List.forall_mem_cons.1 hs
      obtain ⟨hc, ht⟩ := List.forall_mem_cons.1 ht
      have hrx := gmul_lt hv hr hx
      have hrx' := gmul_lt hv hr' hx
      have hstep : gadd (gmul (builtGf m p) (gadd r r') x) (gadd y c) =
          gadd (gadd (gmul (builtGf m p) r x) y) (gadd (gmul (builtGf m p) r' x) c) := by
        rw [gadd_gmul hv hr hr' hx, gadd_gadd_gadd_comm]
      rw [addAtFront, evalD_cons, hstep]
      exact ih (Nat.succ.inj hlen) (gadd_lt hrx hy) (gadd_lt hrx' hc) hs ht

/-- Horner over a product, the first operand read as far as some place: s is that operand's value there, u the product's
places that the rest of it can still change, and r the product's value before them. -/
theorem evalD_convolve_from {r s : Elem} {u t b : Poly} (hlen : u.length = b.length) (hb0 : b ≠ [])
    (hr : r.toNat < 2 ^ m) (hs : s.toNat < 2 ^ m) (hu : ∀ y ∈ u, y.toNat < 2 ^ m) (ht : ∀ y ∈ t, y.toNat < 2 ^ m)
    (hb : ∀ y ∈ b, y.toNat < 2 ^ m)
    (hrs : evalD (builtGf m p) r u x = gmul (builtGf m p) s (evalD (builtGf m p) 0 b x)) :
    evalD (builtGf m p) r (addAtFront u (0 :: convolve (builtGf m p) b t)) x =
      gmul (builtGf m p) (evalD (builtGf m p) s t x) (evalD (builtGf m p) 0 b x) := by
  have hB := evalD_lt hv hx (zero_elem_lt m) hb
  induction t generalizing r s u with
  | nil =>
    obtain ⟨f, w, rfl⟩ := List.exists_cons_of_length_pos (hlen ▸ List.length_pos_of_ne_nil hb0)
    rw [convolve, addAtFront, gadd_zero, addAtFront_nil_right, hrs, evalD_nil]
  | cons h t ih =>
    obtain ⟨f, w, rfl⟩ := List.exists_cons_of_length_pos (hlen ▸ List.length_pos_of_ne_nil hb0)
    obtain ⟨hf, hw⟩ := List.forall_mem_cons.1 hu
    obtain ⟨hh, ht⟩ := List.forall_mem_cons.1 ht
    have hscale := scale_elems_lt hv hh hb
    have hrf := gadd_lt (gmul_lt hv hr hx) hf
    have hwlen : (scale (builtGf m p) h b).length = w.length + 1 := (scale_length _ h b).trans hlen.symm
    have hvalue : evalD (builtGf m p) (gadd (gmul (builtGf m p) r x) f) (addAtFront w (scale (builtGf m p) h b)) x =
        gmul (builtGf m p) (gadd (gmul (builtGf m p) s x) h) (evalD (builtGf m p) 0 b x) := by
      rw [← gadd_zero (gadd _ f), evalD_addAtFront hv hx hwlen hrf (zero_elem_lt m) hw hscale, ← evalD_cons, hrs,
        evalD_scale_zero hv hx hh hb, gadd_gmul hv (gmul_lt hv hs hx) hh hB, gmul_assoc hv hs hB hx,
        gmul_assoc hv hs hx hB, gmul_comm _ x]
    rw [convolve, addAtFront, gadd_zero, ← addAtFront_assoc, evalD_cons, evalD_cons]
    exact ih (by rw [addAtFront_length, hwlen, max_eq_right (Nat.le_succ _)]; exact hlen) hrf
      (gadd_lt (gmul_lt hv hs hx) hh) (addAtFront_elems_lt hw hscale) ht hvalue

/-- The value of a product of nonempty sequences is the product of their values. -/
theorem evalD_pmul {a b : Poly} (ha0 : a ≠ []) (hb0 : b ≠ []) (ha : ∀ y ∈ a, y.toNat < 2 ^ m)
    (hb : ∀ y ∈ b, y.toNat < 2 ^ m) : evalD (builtGf m p) 0 (pmul (builtGf m p) a b) x =
      gmul (builtGf m p) (evalD (builtGf m p) 0 a x) (evalD (builtGf m p) 0 b x) := by
  obtain ⟨h, t, rfl⟩ := List.exists_cons_of_ne_nil ha0
  obtain ⟨hh, ht⟩ := List.forall_mem_cons.1 ha
  rw [pmul, if_neg hb0, convolve, evalD_cons, zero_gmul, zero_gadd]
  exact evalD_convolve_from hv hx (scale_length _ _ _) hb0 (zero_elem_lt m) hh (scale_elems_lt hv hh hb) ht hb
    (evalD_scale_zero hv hx hh hb)

/-- The factor x + c takes the value 0 at c (R231). -/
theorem evalD_linear (c : Elem) : evalD (builtGf m p) 0 [1, c] x = gadd x c := by
  rw [evalD_cons, evalD_cons, evalD_nil, zero_gmul, zero_gadd, one_gmul hv hx]

omit hx in
/-- Each factor's root stays a root when further factors come (R231). -/
theorem evalD_gen_alpha (d b i : Nat) (hi : i < d) :
    evalD (builtGf m p) 0 (gen (builtGf m p) d b) (alpha (builtGf m p) (b + i)) = 0 := by
  induction d with
  | zero => exact absurd hi (Nat.not_lt_zero i)
  | succ d ih =>
    have hgen : gen (builtGf m p) d b ≠ [] := List.ne_nil_of_length_eq_add_one (gen_length _ d b)
    rw [gen_succ, evalD_pmul hv (alpha_lt hv _) hgen (List.cons_ne_nil _ _) (gen_elems_lt hv d b)
      (linear_elems_lt hv _), evalD_linear hv (alpha_lt hv _)]
    rcases Nat.lt_succ_iff_lt_or_eq.1 hi with hlt | rfl
    · rw [ih hlt, zero_gmul]
    · rw [gadd_self, gmul_zero]

end

/-- Settles O35: evaluation is multiplicative, so a root of any factor is a root of the product. -/
theorem generatorIsMonicWithTheNamedRoots : Obligations.GeneratorIsMonicWithTheNamedRoots := by
  intro m p hv d b
  exact ⟨gen_length _ d b, gen_head? hv d b, rfl, gen_succ _ d b, evalD_gen_alpha hv d b⟩

end Sys2Proof.Machine

/-! ## Generator and encode commands (R232 to R234) -/

namespace Sys2Proof.Machine

section
variable {s : State} {a : SReg} {pd pa : PReg}

theorem ruleRsgen_length_error (hs : s.ready = true) (h : s.q < s.intS a) : ruleRsgen a s = .error .length := by
  simp [ruleRsgen, hs, h]

theorem elemsOk_poly_iff {k : PReg} : elemsOk s [] [k] = true ↔ s.elemsP k := by simp [elemsOk_iff]

theorem ruleRsenc_noGen_error (hs : s.ready = true) (hg : s.gvalid = false) : ruleRsenc pd pa s = .error .noGen := by
  simp [ruleRsenc, hs, hg]

theorem ruleRsenc_length_error (hs : s.ready = true) (hg : s.gvalid = true) (h : s.q < s.lenP pa + s.gdeg.toNat) :
    ruleRsenc pd pa s = .error .length := by
  simp [ruleRsenc, hs, hg, h]

theorem ruleRsenc_range_error (hs : s.ready = true) (hg : s.gvalid = true) (h : s.lenP pa + s.gdeg.toNat ≤ s.q)
    (hrange : ¬ elemsOk s [] [pa] = true) : ruleRsenc pd pa s = .error .range := by
  simp [ruleRsenc, hs, hg, not_lt.2 h, hrange]

/-- G is monic in every state the engine reaches, so a division by it raises no error (R231, R27). -/
theorem State.Inv.gpoly_head? (hinv : s.Inv) (hs : s.ready = true) (hg : s.gvalid = true) :
    s.gpoly.head? = some 1 := by
  obtain ⟨hvalid, hgf⟩ := hinv.isReady hs
  obtain ⟨-, -, hgen⟩ := hinv.isGen hg
  rw [hgen, hgf]
  exact gen_head? (configIsValid_base_zero ((validConfig_iff _ _ _).1 hvalid)) _ _

/-- The encoder's division succeeds and leaves GDEG places (R233, R204). -/
theorem State.Inv.exists_enc_eq (hinv : s.Inv) (hs : s.ready = true) (hg : s.gvalid = true) (msg : Poly) :
    ∃ q r, pdivmod s.gf (msg ++ zeros s.gdeg.toNat) s.gpoly = .ok (q, r) ∧ r.length = s.gdeg.toNat ∧
      enc s.gf s.gpoly msg = .ok r := by
  obtain ⟨-, hlen, -⟩ := hinv.isGen hg
  rcases pdivmod_cases s.gf (msg ++ zeros s.gdeg.toNat) s.gpoly with ⟨hzero, -⟩ | ⟨q, r, -, -, hdiv, hr, -⟩
  · obtain ⟨t, ht⟩ := List.head?_eq_some_iff.1 (hinv.gpoly_head? hs hg)
    simp [ht] at hzero
  · exact ⟨q, r, hdiv, by omega, by rw [enc, hlen, Nat.add_sub_cancel, hdiv]⟩

end

/-- Settles O34: RSGEN's checks are READY and the degree. -/
theorem generatorCommandResult : Obligations.GeneratorCommandResult := by
  intro s a hs
  refine ⟨fun hd => ?_, fun hd => ?_⟩
  · exact exec_of_ok (i := .rsgen a) (ruleRsgen_ok.2 ⟨hs, hd, rfl⟩)
  · exact exec_of_error (i := .rsgen a) (ruleRsgen_length_error hs hd)

/-- Settles O36: the checks of RSENC in R286's order, and then a division by a monic G. -/
theorem encodeCommandResult : Obligations.EncodeCommandResult := by
  intro s pd pa hinv hs
  refine ⟨fun hg hlen hrange => ?_, fun hg => ?_, fun hg hlen => ?_, fun hg hlen hrange => ?_⟩
  · obtain ⟨q, r, hdiv, hr, henc⟩ := hinv.exists_enc_eq hs hg (s.readP pa)
    exact ⟨q, r, hdiv, hr, exec_of_ok (i := .rsenc pd pa)
      (ruleRsenc_ok.2 ⟨hs, hg, hlen, elemsOk_poly_iff.2 hrange, r, henc, rfl⟩)⟩
  · exact exec_of_error (i := .rsenc pd pa) (ruleRsenc_noGen_error hs hg)
  · exact exec_of_error (i := .rsenc pd pa) (ruleRsenc_length_error hs hg hlen)
  · exact exec_of_error (i := .rsenc pd pa) (ruleRsenc_range_error hs hg hlen (mt elemsOk_poly_iff.1 hrange))

end Sys2Proof.Machine

/-! ## Decode commands with no codec condition (R251, R253, R256) -/

namespace Sys2Proof.Machine

/-- The message and ECC registers of the two commands that decode a received block with the generator's degree (R251,
R266). -/
def receivedBlock : Instr → Option (PReg × PReg)
  | .rssyn _ pm pe | .rsdec pm pe => some (pm, pe)
  | _ => none

section
variable {i : Instr} {s : State} {pd pa pm pe : PReg} {b : SReg}

/-- After READY the two commands check generator, ECC length, block length and range, in R286's order. -/
theorem exec_of_receivedBlock_rejected (hi : receivedBlock i = some (pm, pe)) (hs : s.ready = true) :
    (s.gvalid = false → exec i s = .next (s.recordError .noGen s.inflight).finish) ∧
    (s.gvalid = true → s.lenP pe ≠ s.gdeg.toNat → exec i s = .next (s.recordError .mismatch s.inflight).finish) ∧
    (s.gvalid = true → s.lenP pe = s.gdeg.toNat → s.q < s.lenP pm + s.lenP pe →
      exec i s = .next (s.recordError .length s.inflight).finish) ∧
    (s.gvalid = true → s.lenP pe = s.gdeg.toNat → s.lenP pm + s.lenP pe ≤ s.q → ¬ (s.elemsP pm ∧ s.elemsP pe) →
      exec i s = .next (s.recordError .range s.inflight).finish) := by
  rw [← elemsOk_two_polys_iff]
  cases i with
  | rssyn | rsdec =>
    cases hi
    refine ⟨fun hg => exec_of_error ?_, fun hg hd => exec_of_error ?_, fun hg hd hN => exec_of_error ?_,
      fun hg hd hN hrange => exec_of_error ?_⟩
    · simp [rule, ruleRssyn, ruleRsdec, hs, hg]
    · simp [rule, ruleRssyn, ruleRsdec, hs, hg, hd]
    · simp [rule, ruleRssyn, ruleRsdec, hs, hg, hd, hd ▸ hN]
    · simp [rule, ruleRssyn, ruleRsdec, hs, hg, hd, not_lt.2 (hd ▸ hN), hrange]
  | _ => cases hi

/-- A syndrome is the value of the whole block: evaluation continues from the message into the ECC (R250, R201). -/
theorem syn_eq (F : Gf) (msg ecc : Poly) (d b : Nat) :
    syn F msg ecc d b = (List.range d).map fun i => evalD F 0 (msg ++ ecc) (alpha F (i + b)) := by
  simp only [syn, evalD_append]

theorem ruleRsbm_length_error (hs : s.ready = true) (h : Config.pcap ≤ s.lenP pa) :
    ruleRsbm pd pa s = .error .length := by
  simp [ruleRsbm, hs, h]

theorem ruleRsbm_range_error (hs : s.ready = true) (hlen : s.lenP pa < Config.pcap)
    (h : ¬ elemsOk s [] [pa] = true) : ruleRsbm pd pa s = .error .range := by
  simp [ruleRsbm, hs, not_le.2 hlen, h]

theorem ruleRschien_length_error (hs : s.ready = true) (h : s.q < s.intS b) :
    ruleRschien pd pa b s = .error .length := by
  simp [ruleRschien, hs, h]

theorem ruleRschien_range_error (hs : s.ready = true) (hlen : s.intS b ≤ s.q) (h : ¬ elemsOk s [] [pa] = true) :
    ruleRschien pd pa b s = .error .range := by
  simp [ruleRschien, hs, not_lt.2 hlen, h]

end

/-- Settles O38: RSSYN's checks in R286's order, and each syndrome as one evaluation of the block. -/
theorem syndromeCommandResult : Obligations.SyndromeCommandResult := by
  intro s pd pa pb hs
  refine ⟨fun hg hd hN ha hb => ?_, exec_of_receivedBlock_rejected (i := .rssyn pd pa pb) rfl hs⟩
  exact exec_of_ok (i := .rssyn pd pa pb)
    (ruleRssyn_ok.2 ⟨hs, hg, hd, hN, elemsOk_two_polys_iff.2 ⟨ha, hb⟩, congrArg (s.writeP pd) (syn_eq _ _ _ _ _)⟩)

/-- Settles O39: RSBM's checks are READY, PCAP and range. -/
theorem locatorCommandResult : Obligations.LocatorCommandResult := by
  intro s pd pa hs
  refine ⟨fun hlen hrange => ?_, fun hlen => ?_, fun hlen hrange => ?_⟩
  · exact exec_of_ok (i := .rsbm pd pa) (ruleRsbm_ok.2 ⟨hs, hlen, elemsOk_poly_iff.2 hrange, rfl⟩)
  · exact exec_of_error (i := .rsbm pd pa) (ruleRsbm_length_error hs hlen)
  · exact exec_of_error (i := .rsbm pd pa) (ruleRsbm_range_error hs hlen (mt elemsOk_poly_iff.1 hrange))

/-- Settles O42: RSCHIEN's checks are READY, block length and range. -/
theorem rootSearchCommandResult : Obligations.RootSearchCommandResult := by
  intro s pd pa b hs
  refine ⟨fun hN hrange => ?_, fun hN => ?_, fun hN hrange => ?_⟩
  · exact exec_of_ok (i := .rschien pd pa b) (ruleRschien_ok.2 ⟨hs, hN, elemsOk_poly_iff.2 hrange, rfl⟩)
  · exact exec_of_error (i := .rschien pd pa b) (ruleRschien_length_error hs hN)
  · exact exec_of_error (i := .rschien pd pa b) (ruleRschien_range_error hs hN (mt elemsOk_poly_iff.1 hrange))

end Sys2Proof.Machine

/-! ## Root search (R255) -/

namespace Sys2Proof.Machine

/-- In a block of at most 65536 places the stored locations are the positions themselves. -/
theorem chienLocs_map_toNat (F : Gf) (lam : Poly) {n : Nat} (hn : n ≤ 65536) : (chienLocs F lam n).map BitVec.toNat =
    ((List.range n).filter fun i => evalA F lam (alpha F i) == 0).map fun i => n - 1 - i := by
  rw [chienLocs, List.map_map]
  refine List.map_congr_left fun i _ => ?_
  exact Nat.mod_eq_of_lt (by have := List.mem_range.1 (List.mem_of_mem_filter ‹_›); omega)

/-- Settles O43: the search goes through the powers in increasing order, and power i belongs to position N - 1 - i. -/
theorem rootSearchFindsExactlyTheRoots : Obligations.RootSearchFindsExactlyTheRoots := by
  intro F lam n hn locs
  have hlocs : locs = _ := chienLocs_map_toNat F lam hn
  refine ⟨fun p => ?_, ?_, ?_⟩
  · simp only [hlocs, List.mem_map, List.mem_filter, List.mem_range, beq_iff_eq]
    constructor
    · rintro ⟨i, ⟨hi, hroot⟩, rfl⟩
      exact ⟨by omega, by rwa [show n - 1 - (n - 1 - i) = i by omega]⟩
    · rintro ⟨hp, hroot⟩
      exact ⟨n - 1 - p, ⟨by omega, hroot⟩, by omega⟩
  · rw [hlocs, List.pairwise_map]
    refine (List.pairwise_lt_range.filter _).imp_of_mem fun hi hj hij => ?_
    have := List.mem_range.1 (List.mem_of_mem_filter hj)
    omega
  · have hlen : locs.length = (chienLocs F lam n).length := List.length_map _
    rw [chien, decide_eq_true_iff, hlen]
    omega

theorem chien_fst_nodup (F : Gf) (lam : Poly) {n : Nat} (hn : n ≤ 65536) : (chien F lam n).1.Nodup := by
  obtain ⟨-, hdecreasing, -⟩ := rootSearchFindsExactlyTheRoots F lam n hn
  exact .of_map _ (hdecreasing.imp ne_of_gt)

theorem lt_of_mem_chien_fst {F : Gf} {lam : Poly} {n : Nat} (hn : n ≤ 65536) : ∀ x ∈ (chien F lam n).1, x.toNat < n := by
  obtain ⟨hroots, -, -⟩ := rootSearchFindsExactlyTheRoots F lam n hn
  exact fun x hx => ((hroots x.toNat).1 (List.mem_map_of_mem hx)).1

end Sys2Proof.Machine

/-! ## The Forney correction (R257 to R262) -/

namespace Sys2Proof.Machine

/-! ### Applying the magnitudes (R261) -/

theorem applyAt_getD (msg : Poly) (p : Nat) (y : Elem) (q : Nat) : (applyAt msg p y).getD q 0 =
    if q = p ∧ p < msg.length then gadd (msg.getD p 0) y else msg.getD q 0 := by
  rw [applyAt]
  by_cases hp : p < msg.length
  · simp only [hp, if_true, and_true, set_getD hp, coef]
  · simp only [hp, if_false, and_false]

theorem applyAll_cons (msg : Poly) (p : Elem) (locs : Poly) (y : Elem) (ys : Poly) :
    applyAll msg (p :: locs) (y :: ys) = applyAll (applyAt msg p.toNat y) locs ys := rfl

theorem applyAll_getD_of_not_named {locs : Poly} {q : Nat} (hq : ∀ x ∈ locs, x.toNat ≠ q) (msg ys : Poly) :
    (applyAll msg locs ys).getD q 0 = msg.getD q 0 := by
  induction locs generalizing msg ys with
  | nil => rfl
  | cons p locs ih =>
    cases ys with
    | nil => rfl
    | cons y ys =>
      obtain ⟨hp, hlocs⟩ := List.forall_mem_cons.1 hq
      rw [applyAll_cons, ih hlocs, applyAt_getD, if_neg fun h => hp h.1.symm]

/-- With distinct locations each message place is corrected once. -/
theorem applyAll_getD_of_named {locs ys : Poly} (hnodup : locs.Nodup) (hlen : ys.length = locs.length) {i : Nat}
    (hi : i < locs.length) {msg : Poly} (hp : (locs.getD i 0).toNat < msg.length) :
    (applyAll msg locs ys).getD (locs.getD i 0).toNat 0 = gadd (msg.getD (locs.getD i 0).toNat 0) (ys.getD i 0) := by
  induction locs generalizing msg ys i with
  | nil => exact absurd hi (Nat.not_lt_zero i)
  | cons p locs ih =>
    obtain ⟨y, ys, rfl⟩ := List.exists_cons_of_length_eq_add_one hlen
    obtain ⟨hp', hnodup⟩ := List.nodup_cons.1 hnodup
    rw [applyAll_cons]
    cases i with
    | zero =>
      simp only [List.getD_cons_zero] at hp ⊢
      have hrest : ∀ x ∈ locs, x.toNat ≠ p.toNat := fun x hx h => hp' (BitVec.eq_of_toNat_eq h ▸ hx)
      rw [applyAll_getD_of_not_named hrest, applyAt_getD, if_pos ⟨rfl, hp⟩]
    | succ i =>
      simp only [List.getD_cons_succ] at hp ⊢
      have hi : i < locs.length := Nat.lt_of_succ_lt_succ hi
      have hne : (locs.getD i 0).toNat ≠ p.toNat := fun h => hp' <| by
        rw [← BitVec.eq_of_toNat_eq h, List.getD_eq_getElem _ _ hi]
        exact List.getElem_mem hi
      rw [ih hnodup (Nat.succ.inj hlen) hi (by rwa [applyAt_length]), applyAt_getD, if_neg fun h => hne h.1]

/-! ### When forney answers, and with what message (R259, R262) -/

section
variable {F : Gf} {msg S lam locs out : Poly} {b n i : Nat}

theorem map_range_getD (hi : i < n) (f : Nat → Elem) : ((List.range n).map f).getD i 0 = f i := by
  rw [List.getD_eq_getElem _ _ (by simpa using hi), List.getElem_map, List.getElem_range]

theorem coef_eq_getElem {l : Poly} (hi : i < l.length) : coef l i = l[i] := List.getD_eq_getElem l 0 hi

@[simp] theorem positions_length : (positions F n locs).length = locs.length := List.length_map _

theorem coef_positions (hi : i < locs.length) :
    coef (positions F n locs) i = alpha F (n - 1 - (locs.getD i 0).toNat) := by
  rw [coef_eq_getElem (by simpa using hi), List.getD_eq_getElem _ _ hi]
  exact List.getElem_map _

/-- Some division of R262 is by the zero element. -/
def forneyDividesByZero (F : Gf) (X : Poly) : Prop := 0 ∈ X ∨ ∃ i < X.length, forneyDenom F X i = 0

theorem forney_of_dividesByZero (h : forneyDividesByZero F (positions F (msg.length + S.length) locs)) :
    forney F msg S lam locs b = .error .domain :=
  if_pos (by simpa [forneyDividesByZero] using h)

theorem forney_of_not_dividesByZero (h : ¬ forneyDividesByZero F (positions F (msg.length + S.length) locs)) :
    forney F msg S lam locs b = .ok (applyAll msg locs
      ((List.range locs.length).map (magnitude F (omega F S lam) (positions F (msg.length + S.length) locs) b))) := by
  rw [forney, if_neg (by simpa [forneyDividesByZero] using h), positions_length]

/-- An answer is the message with every magnitude applied. -/
theorem eq_applyAll_of_forney_ok (h : forney F msg S lam locs b = .ok out) : out = applyAll msg locs
    ((List.range locs.length).map (magnitude F (omega F S lam) (positions F (msg.length + S.length) locs) b)) := by
  by_cases hzero : forneyDividesByZero F (positions F (msg.length + S.length) locs)
  · rw [forney_of_dividesByZero hzero] at h
    cases h
  · rw [forney_of_not_dividesByZero hzero] at h
    exact (Except.ok.inj h).symm

theorem forneyDenom_positions (hi : i < locs.length) : forneyDenom F (positions F n locs) i =
    gprod F (((List.range locs.length).filter fun j => j != i).map fun j =>
      gadd 1 (gmul F (ginvNz F (alpha F (n - 1 - (locs.getD i 0).toNat)))
        (alpha F (n - 1 - (locs.getD j 0).toNat)))) := by
  rw [forneyDenom, positions_length]
  refine congrArg (gprod F) (List.map_congr_left fun j hj => ?_)
  rw [coef_positions hi, coef_positions (List.mem_range.1 (List.mem_of_mem_filter hj))]

end

/-- Settles O45: the answer applies the magnitudes, and distinct locations are corrected once each. -/
theorem forneyAppliesTheMagnitudes : Obligations.ForneyAppliesTheMagnitudes := by
  intro F msg S lam locs out b hnodup h
  refine ⟨forney_length F h, fun i hi hp => ?_, fun q hq => ?_⟩
  · have hmagnitude := map_range_getD hi (magnitude F (omega F S lam) (positions F (msg.length + S.length) locs) b)
    rw [magnitude, forneyDenom_positions hi, coef_positions hi] at hmagnitude
    rw [eq_applyAll_of_forney_ok h, applyAll_getD_of_named hnodup (by simp) hi hp, hmagnitude]
    rfl
  · rw [eq_applyAll_of_forney_ok h, applyAll_getD_of_not_named hq]

/-! ### Forney in a built field: an error exactly for a repeated location (R259) -/

theorem gadd_eq_zero_iff {a b : Elem} : gadd a b = 0 ↔ a = b := BitVec.xor_eq_zero_iff

/-- A table of logarithms holds places of EXP. -/
theorem logOf_le (m p : Nat) (a : Elem) : (builtGf m p).logOf a ≤ groupOrder m := by
  rw [Gf.logOf, builtGf_log, List.getD_eq_getElem?_getD]
  by_cases ha : a.toNat < 2 ^ m
  · rw [buildLog_getElem? m _ _ ha, Option.getD_some]
    split_ifs
    · exact Nat.zero_le _
    · rw [BitVec.toNat_ofNat, ← buildExp_length m p]
      exact (Nat.mod_le _ _).trans List.idxOf_le_length
  · rw [List.getElem?_eq_none (by simpa using ha)]
    exact Nat.zero_le _

section
variable {m p : Nat} (hv : ConfigIsValid m p 0) {a c : Elem} {l X msg S locs : Poly} {n : Nat}
include hv

theorem alpha_ne_zero (k : Nat) : alpha (builtGf m p) k ≠ 0 := by
  intro h
  have hpos := alphaPow_pos hv k
  rw [← alpha_toNat hv, h] at hpos
  exact absurd hpos (lt_irrefl 0)

theorem alpha_inj {i j : Nat} (hi : i < groupOrder m) (hj : j < groupOrder m)
    (h : alpha (builtGf m p) i = alpha (builtGf m p) j) : i = j := by
  obtain ⟨-, -, -, -, hinj, -⟩ := id hv
  refine hinj i j hi hj ?_
  rw [← alpha_toNat hv, h, alpha_toNat hv]

theorem gmul_eq_zero_iff (ha : a.toNat < 2 ^ m) (hc : c.toNat < 2 ^ m) :
    gmul (builtGf m p) a c = 0 ↔ a = 0 ∨ c = 0 := by
  constructor
  · intro h
    rcases elem_cases hv ha with rfl | ⟨i, hi⟩
    · exact .inl rfl
    rcases elem_cases hv hc with rfl | ⟨j, hj⟩
    · exact .inr rfl
    have hpos := alphaPow_pos hv (i + j)
    rw [alphaPow_add, ← hj, ← gmul_toNat_of_power hv hi hc, h] at hpos
    exact absurd hpos (lt_irrefl 0)
  · rintro (rfl | rfl)
    · exact zero_gmul _ _
    · exact gmul_zero _ _

theorem ginvNz_toNat (a : Elem) :
    (ginvNz (builtGf m p) a).toNat = alphaPow m p (groupOrder m - (builtGf m p).logOf a) := expAt_mod_toNat hv _

theorem ginvNz_lt (a : Elem) : (ginvNz (builtGf m p) a).toNat < 2 ^ m :=
  (ginvNz_toNat hv a).trans_lt (alphaPow_lt hv _)

theorem ginvNz_gmul_self (h0 : a ≠ 0) (ha : a.toNat < 2 ^ m) : gmul (builtGf m p) (ginvNz (builtGf m p) a) a = 1 := by
  apply BitVec.eq_of_toNat_eq
  rw [gmul_toNat_of_power hv (ginvNz_toNat hv a) ha, ← alphaPow_logOf hv h0 ha, ← alphaPow_add,
    Nat.sub_add_cancel (logOf_le m p a), ← alphaPow_mod hv, Nat.mod_self]
  rfl

theorem ginvNz_gmul_eq_one_iff (h0 : a ≠ 0) (ha : a.toNat < 2 ^ m) (hc : c.toNat < 2 ^ m) :
    gmul (builtGf m p) (ginvNz (builtGf m p) a) c = 1 ↔ c = a := by
  constructor
  · intro h
    have hinv := ginvNz_lt hv a
    calc c = gmul (builtGf m p) (gmul (builtGf m p) a (ginvNz (builtGf m p) a)) c := by
            rw [gmul_comm _ a, ginvNz_gmul_self hv h0 ha, one_gmul hv hc]
      _ = a := by rw [gmul_assoc hv ha hinv hc, h, gmul_comm, one_gmul hv ha]
  · rintro rfl
    exact ginvNz_gmul_self hv h0 ha

theorem foldl_gmul_eq_zero_iff (ha : a.toNat < 2 ^ m) (hl : ∀ y ∈ l, y.toNat < 2 ^ m) :
    l.foldl (gmul (builtGf m p)) a = 0 ↔ a = 0 ∨ 0 ∈ l := by
  induction l generalizing a with
  | nil => simp
  | cons y l ih =>
    obtain ⟨hy, hl⟩ := List.forall_mem_cons.1 hl
    rw [List.foldl_cons, ih (gmul_lt hv ha hy) hl, gmul_eq_zero_iff hv ha hy, List.mem_cons, or_assoc, eq_comm (a := y)]

/-- A product of field elements is 0 exactly when a factor is (R147). -/
theorem gprod_eq_zero_iff (hl : ∀ y ∈ l, y.toNat < 2 ^ m) : gprod (builtGf m p) l = 0 ↔ 0 ∈ l := by
  rw [gprod, foldl_gmul_eq_zero_iff hv (one_elem_lt hv) hl, or_iff_right (by decide)]

/-- The factor for j in D_i is 0 exactly when X_j = X_i (R259). -/
theorem forneyDenom_eq_zero_iff (hX : ∀ x ∈ X, x ≠ 0 ∧ x.toNat < 2 ^ m) {i : Nat} (hi : i < X.length) :
    forneyDenom (builtGf m p) X i = 0 ↔ ∃ j < X.length, j ≠ i ∧ coef X j = coef X i := by
  have hcoef : ∀ {j}, j < X.length → coef X j ≠ 0 ∧ (coef X j).toNat < 2 ^ m := fun hj =>
    hX _ (coef_eq_getElem hj ▸ List.getElem_mem hj)
  obtain ⟨hi0, hilt⟩ := hcoef hi
  rw [forneyDenom, gprod_eq_zero_iff hv]
  · simp only [List.mem_map, List.mem_filter, List.mem_range, bne_iff_ne, and_assoc]
    refine exists_congr fun j => and_congr_right fun hj => and_congr_right fun _ => ?_
    rw [gadd_eq_zero_iff, eq_comm, ginvNz_gmul_eq_one_iff hv hi0 hilt (hcoef hj).2]
  · refine List.forall_mem_map.2 fun j hj => ?_
    have hj := List.mem_range.1 (List.mem_of_mem_filter hj)
    exact gadd_lt (one_elem_lt hv) (gmul_lt hv (ginvNz_lt hv _) (hcoef hj).2)

/-- Among nonzero position elements a division by zero needs two equal ones. -/
theorem forneyDividesByZero_iff (hX : ∀ x ∈ X, x ≠ 0 ∧ x.toNat < 2 ^ m) :
    forneyDividesByZero (builtGf m p) X ↔ ¬ X.Nodup := by
  have hzero : 0 ∉ X := fun h => (hX 0 h).1 rfl
  rw [forneyDividesByZero, or_iff_right hzero]
  constructor
  · rintro ⟨i, hi, hdenom⟩ hnodup
    obtain ⟨j, hj, hne, heq⟩ := (forneyDenom_eq_zero_iff hv hX hi).1 hdenom
    rw [coef_eq_getElem hi, coef_eq_getElem hj] at heq
    exact hne (hnodup.getElem_inj_iff.1 heq)
  · refine fun hdup => not_forall_not.1 fun hnone => hdup (List.nodup_iff_injective_getElem.2 fun i j hij => ?_)
    refine not_not.1 fun hne => hnone i ⟨i.isLt, (forneyDenom_eq_zero_iff hv hX i.isLt).2 ?_⟩
    refine ⟨j, j.isLt, fun h => hne (Fin.ext h.symm), ?_⟩
    rw [coef_eq_getElem i.isLt, coef_eq_getElem j.isLt]
    exact hij.symm

/-- Locations of a block no longer than Q are distinct exactly when their position elements are (R257). -/
theorem positions_nodup_iff (hn : n ≤ groupOrder m) (hlocs : ∀ x ∈ locs, x.toNat < n) :
    (positions (builtGf m p) n locs).Nodup ↔ locs.Nodup := by
  refine ⟨.of_map _, fun h => h.map_on fun x hx y hy hxy => ?_⟩
  have hx := hlocs x hx
  have hy := hlocs y hy
  have := alpha_inj hv (by omega) (by omega) hxy
  exact BitVec.eq_of_toNat_eq (by omega)

theorem positions_elems : ∀ x ∈ positions (builtGf m p) n locs, x ≠ 0 ∧ x.toNat < 2 ^ m :=
  List.forall_mem_map.2 fun _ _ => ⟨alpha_ne_zero hv _, alpha_lt hv _⟩

theorem forney_cases_of_built (hn : msg.length + S.length ≤ groupOrder m)
    (hlocs : ∀ x ∈ locs, x.toNat < msg.length + S.length) (lam : Poly) (b : Nat) :
    (locs.Nodup ∧ ∃ out, forney (builtGf m p) msg S lam locs b = .ok out) ∨
      (¬ locs.Nodup ∧ forney (builtGf m p) msg S lam locs b = .error .domain) := by
  have hiff := (forneyDividesByZero_iff hv (positions_elems hv)).trans (not_congr (positions_nodup_iff hv hn hlocs))
  by_cases hnodup : locs.Nodup
  · exact .inl ⟨hnodup, _, forney_of_not_dividesByZero (mt hiff.1 (not_not.2 hnodup))⟩
  · exact .inr ⟨hnodup, forney_of_dividesByZero (hiff.2 hnodup)⟩

end

/-! ### RSFORNEY (R264) -/

section
variable {s : State} {pd pa pb pc : PReg} {msg S locs : Poly}

/-- In a state the engine reaches, distinct locations of a block no longer than Q are corrected (R259, R262). -/
theorem State.Inv.forney_cases (hinv : s.Inv) (hs : s.ready = true) (hn : msg.length + S.length ≤ s.q)
    (hlocs : ∀ x ∈ locs, x.toNat < msg.length + S.length) (lam : Poly) :
    (locs.Nodup ∧ ∃ out, forney s.gf msg S lam locs s.b = .ok out) ∨
      (¬ locs.Nodup ∧ forney s.gf msg S lam locs s.b = .error .domain) := by
  obtain ⟨hvalid, hgf⟩ := hinv.isReady hs
  rw [hgf]
  exact forney_cases_of_built (configIsValid_base_zero ((validConfig_iff _ _ _).1 hvalid)) hn hlocs lam _

/-- What R264 checks after the lengths: field elements in message, syndromes and locator, and locations below N. -/
def forneySourcesOk (s : State) (pd pa pb pc : PReg) : Prop :=
  s.elemsP pd ∧ s.elemsP pa ∧ s.elemsP pb ∧ ∀ x ∈ s.readP pc, x.toNat < s.lenP pd + s.lenP pa

theorem forneySourcesOk_iff : forneySourcesOk s pd pa pb pc ↔ elemsOk s [] [pd, pa, pb] = true ∧
    ((s.readP pc).all fun x => decide (x.toNat < s.lenP pd + s.lenP pa)) = true := by
  simp [forneySourcesOk, elemsOk_iff, and_assoc]

theorem lenP_eq_zero_iff : s.lenP pb = 0 ↔ s.readP pb = [] := List.length_eq_zero_iff

theorem ruleRsforney_length_error (hs : s.ready = true) (h : s.q < s.lenP pd + s.lenP pa ∨ s.readP pb = []) :
    ruleRsforney pd pa pb pc s = .error .length := by
  simp [ruleRsforney, hs, lenP_eq_zero_iff, h]

section
variable (hs : s.ready = true) (hn : s.lenP pd + s.lenP pa ≤ s.q) (hpb : s.readP pb ≠ [])
include hs hn hpb

theorem ruleRsforney_range_error (h : ¬ forneySourcesOk s pd pa pb pc) :
    ruleRsforney pd pa pb pc s = .error .range := by
  have hlen := not_or.2 ⟨not_lt.2 hn, mt lenP_eq_zero_iff.1 hpb⟩
  rw [forneySourcesOk_iff, not_and_or] at h
  rcases h with helems | hlocs
  · simp [ruleRsforney, hs, hlen, helems]
  · simp [ruleRsforney, hs, hlen, hlocs]

/-- Past its checks the command is forney (R264). -/
theorem ruleRsforney_domain_error (h : forneySourcesOk s pd pa pb pc)
    (hf : forney s.gf (s.readP pd) (s.readP pa) (s.readP pb) (s.readP pc) s.b = .error .domain) :
    ruleRsforney pd pa pb pc s = .error .domain := by
  have hlen := not_or.2 ⟨not_lt.2 hn, mt lenP_eq_zero_iff.1 hpb⟩
  obtain ⟨helems, hlocs⟩ := forneySourcesOk_iff.1 h
  simp [ruleRsforney, hs, hlen, helems, hlocs, hf]

end
end

/-- Settles O44: past the checks, R262 divides by zero exactly for a repeated location. -/
theorem forneyCommandResult : Obligations.ForneyCommandResult := by
  intro s pd pa pb pc hinv hs
  refine ⟨fun hn hpb hok hnodup => ?_, fun hn hpb hok hdup => ?_, fun hlen => ?_, fun hn hpb hbad => ?_⟩
  · obtain ⟨-, -, -, hlocs⟩ := id hok
    obtain ⟨helems, -⟩ := forneySourcesOk_iff.1 hok
    obtain ⟨-, out, hout⟩ | ⟨hdup, -⟩ := hinv.forney_cases hs hn hlocs (s.readP pb)
    · exact ⟨out, hout, exec_of_ok (i := .rsforney pd pa pb pc)
        (ruleRsforney_ok.2 ⟨hs, hn, mt lenP_eq_zero_iff.1 hpb, helems, hlocs, out, hout, rfl⟩)⟩
    · exact absurd hnodup hdup
  · obtain ⟨-, -, -, hlocs⟩ := id hok
    obtain ⟨hnodup, -⟩ | ⟨-, herror⟩ := hinv.forney_cases hs hn hlocs (s.readP pb)
    · exact absurd hnodup hdup
    · exact exec_of_error (i := .rsforney pd pa pb pc) (ruleRsforney_domain_error hs hn hpb hok herror)
  · exact exec_of_error (i := .rsforney pd pa pb pc) (ruleRsforney_length_error hs hlen)
  · exact exec_of_error (i := .rsforney pd pa pb pc) (ruleRsforney_range_error hs hn hpb hbad)

end Sys2Proof.Machine

/-! ## Full decode (R265, R266) -/

namespace Sys2Proof.Machine

section
variable {F : Gf} {msg ecc out : Poly} {d b : Nat}

/-- A failed root count leaves the message as it is (R265). -/
theorem dec_of_rootCount_fails
    (h : (chien F (bm F (syn F msg ecc d b)) (msg.length + ecc.length)).2 = false) :
    dec F msg ecc d b = .ok (msg, false, 0) := by
  rw [dec, h]
  rfl

theorem dec_of_rootCount_holds
    (h : (chien F (bm F (syn F msg ecc d b)) (msg.length + ecc.length)).2 = true)
    (hout : forney F msg (syn F msg ecc d b) (bm F (syn F msg ecc d b))
      (chien F (bm F (syn F msg ecc d b)) (msg.length + ecc.length)).1 b = .ok out) :
    dec F msg ecc d b =
      .ok (out, true, (chien F (bm F (syn F msg ecc d b)) (msg.length + ecc.length)).1.length) := by
  simp only [dec, h, hout, if_true]

end

theorem writeP_readP (s : State) (k : PReg) : s.writeP k (s.readP k) = s := by
  simp [State.writeP, State.readP]

theorem State.Inv.q_lt {s : State} (hinv : s.Inv) (hs : s.ready = true) : s.q < 65536 := by
  obtain ⟨hvalid, -⟩ := hinv.isReady hs
  have := two_pow_le_elem_range (configIsValid_base_zero ((validConfig_iff _ _ _).1 hvalid))
  rw [State.q, groupOrder]
  omega

/-- The root search's locations are distinct positions of the block, so the correction raises no error (R265). -/
theorem State.Inv.exists_forney_chien {s : State} (hinv : s.Inv) (hs : s.ready = true) {msg S : Poly}
    (hn : msg.length + S.length ≤ s.q) (lam : Poly) :
    ∃ out, forney s.gf msg S lam (chien s.gf lam (msg.length + S.length)).1 s.b = .ok out := by
  have hle := hn.trans (hinv.q_lt hs).le
  obtain ⟨-, hout⟩ | ⟨hdup, -⟩ := hinv.forney_cases hs hn (lt_of_mem_chien_fst hle) lam
  · exact hout
  · exact absurd (chien_fst_nodup s.gf lam hle) hdup

/-- Settles O46: RSDEC's checks in R286's order, and the outcome of the root count. -/
theorem decodeCommandResult : Obligations.DecodeCommandResult := by
  intro s pd pa hinv hs msg ecc N Q d S lam
  refine ⟨fun hg hd hN hrd hra => ?_, exec_of_receivedBlock_rejected (i := .rsdec pd pa) rfl hs⟩
  have hdec : ∀ {r}, dec s.gf msg ecc d s.b = .ok r → exec (.rsdec pd pa) s = .next (State.finish
      { s.writeP pd r.1 with fOk := r.2.1, errcount := BitVec.ofNat 16 r.2.2 }) := fun hr =>
    exec_of_ok (i := .rsdec pd pa)
      (ruleRsdec_ok.2 ⟨hs, hg, hd, hN, elemsOk_two_polys_iff.2 ⟨hrd, hra⟩, _, _, _, hr, rfl⟩)
  refine ⟨fun hfail => ?_, fun hcount => ?_⟩
  · rw [hdec (dec_of_rootCount_fails hfail), writeP_readP]
    rfl
  · have hS : msg.length + S.length = N := by rw [syn_length, ← hd]
    obtain ⟨out, hout⟩ := hinv.exists_forney_chien hs (hS.trans_le hN) lam
    rw [hS] at hout
    exact ⟨out, hout, hdec (dec_of_rootCount_holds hcount hout)⟩

end Sys2Proof.Machine

/-! ## Completion and the error record (R280 to R283) -/

namespace Sys2Proof.Machine

section
variable {i : Instr} {s t : State}

/-- With no error pending, ERRCODE and ERRCMD are taken and ERROVF stays (R281). -/
theorem recordError_first (hs : s.err = false) (e : ErrCode) (w : Word) :
    s.recordError e w = { s with err := true, errcode := e.code, errcmd := w } := by
  simp [State.recordError, hs]

/-- With an error pending, ERRCODE and ERRCMD stay and ERROVF is set (R283). -/
theorem recordError_again (hs : s.err = true) (e : ErrCode) (w : Word) :
    s.recordError e w = { s with errovf := true } := by
  simp [State.recordError, hs]

/-- A command whose rule succeeds writes no error field (R281). -/
theorem effect_errorFields (h : Effect s i t) :
    t.err = s.err ∧ t.errcode = s.errcode ∧ t.errcmd = s.errcmd ∧ t.errovf = s.errovf := by
  cases h <;> exact ⟨rfl, rfl, rfl, rfl⟩

theorem completes_of_effect (h : Effect s i t) : Completes s (.next t.finish) :=
  ⟨t.finish, rfl, rfl, rfl, .inl (effect_errorFields (t := t) h)⟩

/-- A recorded error is the first one or a later one; either way nothing but the record, BUSY and DONE changes (R282). -/
theorem completes_of_recordError (s : State) (e : ErrCode) :
    Completes s (.next (s.recordError e s.inflight).finish) := by
  refine ⟨_, rfl, rfl, rfl, .inr ⟨e, ?_⟩⟩
  rcases Bool.eq_false_or_eq_true s.err with hs | hs
  · exact .inr ⟨hs, congrArg State.finish (recordError_again hs e s.inflight)⟩
  · exact .inl ⟨hs, congrArg State.finish (recordError_first hs e s.inflight)⟩

theorem completes_exec (i : Instr) (s : State) : Completes s (exec i s) := by
  rcases exec_cases (exec_eq i s) with ⟨u, hu, ht⟩ | ⟨e, ht⟩ <;> rw [exec_eq, ht]
  · exact completes_of_effect hu
  · exact completes_of_recordError s e

end

/-- Settles O11: a command ends in one of its effects, which keep the error record, or in a recorded error, as an illegal
word does. -/
theorem everyCommandCompletesAndErrorsArePrecise : Obligations.EveryCommandCompletesAndErrorsArePrecise := by
  refine ⟨completes_exec, fun s => ?_⟩
  rcases perform_cases s with ⟨i, -, hp⟩ | ⟨-, -, hp⟩ <;> rw [hp]
  · exact completes_exec i s
  · exact completes_of_recordError s .illegal

end Sys2Proof.Machine

/-! ## A command in execution and the host (R72, R325, R326) -/

namespace Sys2Proof.Machine

/-- s with the fields that a host access can change while BUSY = 1 taken from h: IRQ_EN, the flags and the error record,
and the model's own replies, draws and poll mark (R326). -/
def State.withBusyFields (s h : State) : State :=
  { s with
    irqEn := h.irqEn, done := h.done, err := h.err, errovf := h.errovf, accerr := h.accerr, errcode := h.errcode
    errcmd := h.errcmd, replies := h.replies, draws := h.draws, unpolled := h.unpolled }

/-! ### Accesses with BUSY = 1 change nothing else -/

theorem access_busy {s : State} (hb : s.busy = true) {a : Access} (ha : a.softResets = false) :
    ∃ h, s.access a = s.withBusyFields h := by
  cases a with
  | read size addr =>
    obtain ⟨r, d, e, u, h⟩ := access_read_frame s size addr
    exact ⟨{ s with replies := r, draws := d, accerr := e, unpolled := u }, h⟩
  | write size addr v =>
    rcases access_write_cases s size addr v with h | ⟨hl, ⟨ht, h⟩ | ⟨-, h⟩ | ⟨hidle, -⟩⟩
    · exact ⟨s.accessError, h⟩
    · obtain rfl := addr_of_targetOf_ctrl hl ht
      obtain ⟨rfl, -⟩ := legalAccess_iff.1 hl
      have hv : v.getLsbD 1 = false := ha
      rcases writeCtrl_cases s v with ⟨hreset, -⟩ | ⟨-, hw⟩
      · exact nomatch hv.symm.trans hreset
      · exact ⟨{ s with irqEn := v.getLsbD 0 }, h.trans hw⟩
    · exact ⟨s.writeStatus v, h⟩
    · exact nomatch hb.symm.trans hidle

theorem foldl_access_busy {s : State} (hb : s.busy = true) {acc : List Access}
    (hacc : ∀ a ∈ acc, a.softResets = false) :
    ∃ h, acc.foldl State.access s = s.withBusyFields h := by
  induction acc generalizing s with
  | nil => exact ⟨s, rfl⟩
  | cons a acc ih =>
    obtain ⟨ha, hacc⟩ := List.forall_mem_cons.1 hacc
    obtain ⟨h, hstep⟩ := access_busy hb ha
    obtain ⟨h', hrest⟩ := ih (s := s.withBusyFields h) hb hacc
    exact ⟨h', by rw [List.foldl_cons, hstep, hrest]; rfl⟩

/-! ### No command reads those fields -/

section
variable (s h : State)

theorem readP_withBusyFields (k : PReg) : (s.withBusyFields h).readP k = s.readP k := rfl
theorem gf_withBusyFields : (s.withBusyFields h).gf = s.gf := rfl
theorem b_withBusyFields : (s.withBusyFields h).b = s.b := rfl
theorem gdeg_withBusyFields : (s.withBusyFields h).gdeg = s.gdeg := rfl
theorem gpoly_withBusyFields : (s.withBusyFields h).gpoly = s.gpoly := rfl

/-- A command's rule succeeds or fails alike, and carries the host's fields along unread. -/
theorem rule_withBusyFields (i : Instr) :
    rule i (s.withBusyFields h) = (rule i s).map fun t => t.withBusyFields h := by
  cases i with
  | nop | li | plen | pmov | prev | pstrip => rfl
  | build => simp only [rule, ruleBuild, apply_ite (Except.map _)]; rfl
  | gadd | gmul | gdiv | ginv | gpow | gexp | glog =>
    simp only [rule, ruleGadd, ruleGmul, ruleGdiv, ruleGinv, ruleGpow, ruleGexp, ruleGlog, apply_ite (Except.map _)]
    rfl
  | pget | pput | psetlen =>
    simp only [rule, rulePget, rulePput, rulePsetlen, apply_ite (Except.map _)]
    rfl
  | peval | pevala | pevalc | pmul | paddsb =>
    simp only [rule, rulePeval, rulePevala, rulePevalc, rulePmul, rulePaddsb, apply_ite (Except.map _)]
    rfl
  | rsgen | rssyn | rsbm | rschien =>
    simp only [rule, ruleRsgen, ruleRssyn, ruleRsbm, ruleRschien, apply_ite (Except.map _)]
    rfl
  | pdiv pd pa pb pc =>
    simp only [rule, rulePdiv, apply_ite (Except.map _), readP_withBusyFields, gf_withBusyFields]
    cases pdivmod s.gf (s.readP pa) (s.readP pb) <;> rfl
  | rsenc pd pa =>
    simp only [rule, ruleRsenc, apply_ite (Except.map _), readP_withBusyFields, gf_withBusyFields,
      gpoly_withBusyFields]
    cases enc s.gf s.gpoly (s.readP pa) <;> rfl
  | rsforney pd pa pb pc =>
    simp only [rule, ruleRsforney, apply_ite (Except.map _), readP_withBusyFields, gf_withBusyFields, b_withBusyFields]
    cases forney s.gf (s.readP pd) (s.readP pa) (s.readP pb) (s.readP pc) s.b <;> rfl
  | rsdec pd pa =>
    simp only [rule, ruleRsdec, apply_ite (Except.map _), readP_withBusyFields, gf_withBusyFields,
      gdeg_withBusyFields, b_withBusyFields]
    cases dec s.gf (s.readP pd) (s.readP pa) s.gdeg.toNat s.b <;> rfl

/-- A completion changes only the flags and the error record beside what the rule wrote (R280 to R282). -/
theorem exec_withBusyFields {i : Instr} {t t' : State} (ht : exec i s = .next t)
    (ht' : exec i (s.withBusyFields h) = .next t') : ∃ h', t' = t.withBusyFields h' := by
  rw [exec_eq] at ht ht'
  rw [rule_withBusyFields] at ht'
  cases ht
  cases ht'
  cases rule i s with
  | ok u => exact ⟨(u.withBusyFields h).finish, rfl⟩
  | error e => exact ⟨((s.withBusyFields h).recordError e s.inflight).finish, rfl⟩

end

/-- Settles O60: the accesses change only fields that no command reads, and the results differ only in those. -/
theorem hostCannotDisturbACommandInExecution : Obligations.HostCannotDisturbACommandInExecution := by
  intro s t t' i acc hb hacc s' ht ht'
  obtain ⟨h, hs'⟩ : ∃ h, s' = s.withBusyFields h := foldl_access_busy hb hacc
  rw [hs'] at ht' ⊢
  obtain ⟨h', rfl⟩ := exec_withBusyFields s h ht ht'
  exact ⟨hb, rfl, rfl, rfl, rfl, rfl, rfl, rfl, rfl, rfl, rfl, rfl, rfl, rfl, rfl⟩

/-- Settles O10: each move of R328 by the step's own equation. -/
theorem stepMakesTheNextMove : Obligations.StepMakesTheNextMove := by
  refine ⟨fun s a rest hm => ?_, fun s rest hb hm => ?_, fun s rest hm => ?_, fun s hb hm => ?_⟩
  · simp only [step, hm, makeMove]
  · rw [step_engine hm]
    exact engineTurn_idle hb
  · simp only [step, hm, makeMove, State.resetEngine]
  · rw [step_nil hm]
    exact engineTurn_idle hb

/-! ### Accesses with BUSY = 1 register by register (R326) -/

/-- Only five registers and the unmapped offsets are read as when idle. -/
theorem readBusy_eq_replyDraw (s : State) {t : Target} (ht : t ∉ [.reserved, .id, .ctrl, .status, .cmd, .cap]) :
    s.readBusy t = s.replyDraw := by
  cases t with
  | id | ctrl | status | cmd | cap | reserved => exact absurd (by decide) ht
  | _ => rfl

/-- The registers that a busy read answers stand at these words (R30). -/
theorem toNat_of_targetOf_answered {a : Addr} (ha : a.toNat % 4 = 0)
    (ht : targetOf a ∈ [.id, .ctrl, .status, .cmd, .cap]) : a.toNat ∈ [0x000, 0x004, 0x008, 0x00C, 0x030] := by
  have hfixed : ∀ n < 13, targetOf (BitVec.ofNat 24 (4 * n)) ∈ [.id, .ctrl, .status, .cmd, .cap] →
      4 * n ∈ [0x000, 0x004, 0x008, 0x00C, 0x030] := by decide
  by_cases ho : a.toNat < 0x034
  · have hword : 4 * (a.toNat / 4) = a.toNat := by omega
    have := hfixed (a.toNat / 4) (by omega)
    rw [hword, BitVec.ofNat_toNat, BitVec.setWidth_eq] at this
    exact this ht
  · unfold targetOf at ht
    simp only [ho, if_false] at ht
    split_ifs at ht <;> simp at ht

/-- A STATUS read with BUSY = 1 leaves the poll mark (R327, R329). -/
theorem readStatus_busy {s : State} (hb : s.busy = true) :
    s.readStatus = { s with replies := s.statusWord :: s.replies } := by
  simp [State.readStatus, State.reply, hb]

/-- Settles O58: CTRL and STATUS have one word each, five registers answer by name, and the rest draws a word. -/
theorem busyAccessesAreRefusedOrUnspecified : Obligations.BusyAccessesAreRefusedOrUnspecified := by
  intro s a v hb ha o reserved
  have hl : legalAccess .word a = true := legalAccess_iff.2 ⟨rfl, ha⟩
  have at_offset {n : Nat} (h : o = n) : a = BitVec.ofNat 24 n := by
    rw [← h, BitVec.ofNat_toNat, BitVec.setWidth_eq]
  refine ⟨fun hctrl hstatus => ?_, fun h => at_offset h ▸ access_read_busy rfl hb,
    fun h => at_offset h ▸ access_read_ctrl s, fun h => ?_, fun h => at_offset h ▸ access_read_busy rfl hb,
    fun h => at_offset h ▸ access_read_busy rfl hb, fun hmapped h0 h4 h8 hC h30 => ?_⟩
  · rcases writeBusy_cases s (targetOf a) v with ⟨ht, -⟩ | ⟨ht, -⟩ | ⟨-, -, h⟩
    · exact absurd (congrArg BitVec.toNat (addr_of_targetOf_ctrl hl ht)) hctrl
    · exact absurd (congrArg BitVec.toNat (addr_of_targetOf_status hl ht)) hstatus
    · exact (access_write_busy hl hb v).trans h
  · rw [at_offset h]
    exact (access_read_status s).trans (readStatus_busy hb)
  · have hdraw : targetOf a ∉ [.reserved, .id, .ctrl, .status, .cmd, .cap] := by
      intro ht
      rcases List.mem_cons.1 ht with hr | ht
      · exact hmapped (targetOf_eq_reserved_iff.1 hr)
      · exact absurd (toNat_of_targetOf_answered ha ht) (by simp; omega)
    exact ⟨_, (access_read_busy hl hb).trans (readBusy_eq_replyDraw s hdraw)⟩
end Sys2Proof.Machine

/-! ## The tables and the laws of a built field (R123, R147) -/

namespace Sys2Proof.Machine

/-! ### EXP and LOG (R123) -/

/-- A product by x modulo p, in the terms of the claim (R123). -/
theorem xtime_eq (m p e : Nat) : xtime m p e = if (2 * e).testBit m then (2 * e) ^^^ p else 2 * e := by
  rw [xtime, Nat.shiftLeft_eq, pow_one, mul_comm]

section
variable {m p : Nat} (hv : ConfigIsValid m p 0) {a b c : Elem}
include hv

/-- The logarithm of a nonzero element is its place in EXP. -/
theorem logOf_lt (h0 : a ≠ 0) (ha : a.toNat < 2 ^ m) : (builtGf m p).logOf a < groupOrder m := by
  have hpos : 0 < a.toNat := Nat.pos_of_ne_zero fun h => h0 (BitVec.eq_of_toNat_eq h)
  obtain ⟨k, hk, hak⟩ := exists_alphaPow_eq hv hpos ha
  have hword : BitVec.ofNat 16 a.toNat = a := by rw [BitVec.ofNat_toNat, BitVec.setWidth_eq]
  have hmem : a ∈ buildExp m p := List.mem_of_getElem? ((buildExp_getElem? m p k hk).trans (by rw [hak, hword]))
  calc (builtGf m p).logOf a ≤ (buildExp m p).idxOf a := by
        rw [Gf.logOf, builtGf_log, List.getD_eq_getElem?_getD, buildLog_getElem? m _ _ ha, if_neg hpos.ne', hword]
        exact Nat.mod_le _ _
    _ < groupOrder m := by simpa using List.idxOf_lt_length_of_mem hmem

theorem ne_zero_of_toNat_eq_alphaPow {k : Nat} (h : a.toNat = alphaPow m p k) : a ≠ 0 := by
  rintro rfl
  exact (alphaPow_pos hv k).ne h

/-- LOG undoes EXP, since the powers below Q are distinct. -/
theorem logOf_expAt {k : Nat} (hk : k < groupOrder m) : (builtGf m p).logOf ((builtGf m p).expAt k) = k := by
  obtain ⟨-, -, -, -, hinj, -⟩ := id hv
  have h0 := ne_zero_of_toNat_eq_alphaPow hv (expAt_toNat hv hk)
  have hlt : ((builtGf m p).expAt k).toNat < 2 ^ m := (expAt_toNat hv hk).trans_lt (alphaPow_lt hv k)
  exact hinj _ _ (logOf_lt hv h0 hlt) hk ((alphaPow_logOf hv h0 hlt).trans (expAt_toNat hv hk))

end

/-- Settles O17: EXP holds the powers of α, and LOG is its inverse on the nonzero elements. -/
theorem buildTablesArePowersAndLogarithms : Obligations.BuildTablesArePowersAndLogarithms := by
  refine ⟨xtime_eq, ?_, by decide, by decide⟩
  intro m p hv E Lg Q
  obtain ⟨⟨hm, -⟩, -⟩ := id hv
  have hQ : 0 < Q := groupOrder_pos hm
  refine ⟨buildExp_length m p, ?_, ?_, ?_, fun i h1 hi => ?_, fun i hi => logOf_expAt hv hi, fun a h1 ha => ?_⟩
  · rw [buildLog_length]
    exact (Nat.sub_add_cancel (Nat.two_pow_pos m)).symm
  · exact BitVec.eq_of_toNat_eq (expAt_toNat hv hQ)
  · rw [List.getD_eq_getElem?_getD, buildLog_getElem? m E 0 (Nat.two_pow_pos m)]
    rfl
  · obtain ⟨j, rfl⟩ : ∃ j, i = j + 1 := ⟨i - 1, by omega⟩
    exact (expAt_toNat hv hi).trans (congrArg (xtime m p) (expAt_toNat hv (Nat.lt_of_succ_lt hi)).symm)
  · have hlt : a < 2 ^ m := by omega
    have hnat : (BitVec.ofNat 16 a).toNat = a := Nat.mod_eq_of_lt (hlt.trans_le (two_pow_le_elem_range hv))
    have h0 : BitVec.ofNat 16 a ≠ 0 := fun h =>
      Nat.not_succ_le_zero 0 (h1.trans_eq (hnat.symm.trans (congrArg BitVec.toNat h)))
    have hlog := logOf_lt hv h0 (hnat.trans_lt hlt)
    have hpow := alphaPow_logOf hv h0 (hnat.trans_lt hlt)
    rw [Gf.logOf, hnat] at hlog
    rw [Gf.logOf, hnat] at hpow
    exact ⟨hlog, (expAt_toNat hv hlog).trans hpow⟩

/-! ### The laws (R147) -/

section
variable {m p : Nat} (hv : ConfigIsValid m p 0) {a b c : Elem}
include hv

theorem gmul_one (ha : a.toNat < 2 ^ m) : gmul (builtGf m p) a 1 = a := by rw [gmul_comm, one_gmul hv ha]

theorem gmul_ginvNz_self (h0 : a ≠ 0) (ha : a.toNat < 2 ^ m) : gmul (builtGf m p) a (ginvNz (builtGf m p) a) = 1 := by
  rw [gmul_comm, ginvNz_gmul_self hv h0 ha]

theorem ginvNz_ne_zero (a : Elem) : ginvNz (builtGf m p) a ≠ 0 := ne_zero_of_toNat_eq_alphaPow hv (ginvNz_toNat hv a)

theorem ginvNz_ginvNz (h0 : a ≠ 0) (ha : a.toNat < 2 ^ m) : ginvNz (builtGf m p) (ginvNz (builtGf m p) a) = a := by
  rw [← ginvNz_gmul_eq_one_iff hv h0 ha (ginvNz_lt hv _), gmul_ginvNz_self hv (ginvNz_ne_zero hv a) (ginvNz_lt hv a)]

theorem gdivNz_lt (hb : b.toNat < 2 ^ m) (a : Elem) : (gdivNz (builtGf m p) b a).toNat < 2 ^ m :=
  gmul_lt hv hb (ginvNz_lt hv a)

theorem gdivNz_gmul_self (h0 : a ≠ 0) (ha : a.toNat < 2 ^ m) (hb : b.toNat < 2 ^ m) :
    gmul (builtGf m p) (gdivNz (builtGf m p) b a) a = b := by
  rw [gdivNz, gmul_assoc hv hb (ginvNz_lt hv a) ha, ginvNz_gmul_self hv h0 ha, gmul_one hv hb]

theorem gmul_gdivNz_cancel (h0 : a ≠ 0) (ha : a.toNat < 2 ^ m) (hb : b.toNat < 2 ^ m) :
    gdivNz (builtGf m p) (gmul (builtGf m p) b a) a = b := by
  rw [gdivNz, gmul_assoc hv hb ha (ginvNz_lt hv a), gmul_ginvNz_self hv h0 ha, gmul_one hv hb]

theorem gdivNz_one (hb : b.toNat < 2 ^ m) : gdivNz (builtGf m p) b 1 = b := by
  conv_lhs => rw [← gmul_one hv hb]
  exact gmul_gdivNz_cancel hv (by decide) (one_elem_lt hv) hb

omit hv in
theorem gpow_zero (F : Gf) (a : Elem) : gpow F a 0 = 1 := rfl

omit hv in
theorem zero_gpow (F : Gf) {e : Nat} (he : e ≠ 0) : gpow F 0 e = 0 := by rw [gpow, if_neg he, if_pos rfl]

/-- A power of a nonzero element is the power of α at its logarithm times the exponent (R145). -/
theorem gpow_toNat (h0 : a ≠ 0) (e : Nat) :
    (gpow (builtGf m p) a e).toNat = alphaPow m p ((builtGf m p).logOf a * e) := by
  rcases eq_or_ne e 0 with rfl | he
  · rfl
  · rw [gpow, if_neg he, if_neg h0]
    exact expAt_mod_toNat hv _

theorem gpow_lt (a : Elem) (e : Nat) : (gpow (builtGf m p) a e).toNat < 2 ^ m := by
  rcases eq_or_ne a 0 with rfl | h0
  · rcases eq_or_ne e 0 with rfl | he
    · exact one_elem_lt hv
    · rw [zero_gpow _ he]
      exact zero_elem_lt m
  · exact (gpow_toNat hv h0 e).trans_lt (alphaPow_lt hv _)

theorem gpow_add (a : Elem) (e₁ e₂ : Nat) : gpow (builtGf m p) a (e₁ + e₂) =
    gmul (builtGf m p) (gpow (builtGf m p) a e₁) (gpow (builtGf m p) a e₂) := by
  rcases eq_or_ne e₁ 0 with rfl | h1
  · rw [gpow_zero, one_gmul hv (gpow_lt hv a e₂), Nat.zero_add]
  rcases eq_or_ne a 0 with rfl | h0
  · rw [zero_gpow _ h1, zero_gpow _ (by omega), zero_gmul]
  · apply BitVec.eq_of_toNat_eq
    rw [gmul_toNat_of_power hv (gpow_toNat hv h0 e₁) (gpow_lt hv a e₂), gpow_toNat hv h0, gpow_toNat hv h0,
      ← alphaPow_add, Nat.mul_add]

theorem gpow_groupOrder (h0 : a ≠ 0) : gpow (builtGf m p) a (groupOrder m) = 1 := by
  apply BitVec.eq_of_toNat_eq
  rw [gpow_toNat hv h0, ← alphaPow_mod hv, Nat.mul_mod_left]
  rfl

end

/-- Settles O18: the laws of R147, each from the powers of α. -/
theorem fieldLawsHoldInEveryBuiltField : Obligations.FieldLawsHoldInEveryBuiltField := by
  intro m p hv a b c ha hb hc F
  exact ⟨gadd_lt ha hb, gmul_lt hv ha hb, gpow_lt hv a, gadd_self a, gadd_zero a, gmul_one hv ha, gmul_comm F a b,
    gmul_assoc hv ha hb hc, gmul_gadd hv ha hb hc, fun h0 => ⟨gmul_ginvNz_self hv h0 ha, ginvNz_ginvNz hv h0 ha,
      ginvNz_lt hv a, gdivNz_lt hv hb a, gpow_groupOrder hv h0⟩, gpow_add hv a⟩

/-! ### The carry-less product (R156) -/

/-- The last n of polyMod's passes: bits m + n - 1 down to m are cleared. -/
def polyModFrom (m p n v : Nat) : Nat :=
  (List.range n).reverse.foldl (fun r k => if r.testBit (m + k) then r ^^^ (p <<< k) else r) v

/-- The carry-less product by the low n bits of b. -/
def clmulLow (a b n : Nat) : Nat := (List.range n).foldl (fun r i => if b.testBit i then r ^^^ (a <<< i) else r) 0

theorem polyModFrom_succ (m p n v : Nat) : polyModFrom m p (n + 1) v =
    polyModFrom m p n (if v.testBit (m + n) then v ^^^ (p <<< n) else v) := by
  rw [polyModFrom, List.range_succ, List.reverse_append]
  rfl

theorem clmulLow_succ (a b n : Nat) : clmulLow a b (n + 1) =
    if b.testBit n then clmulLow a b n ^^^ (a <<< n) else clmulLow a b n := by
  rw [clmulLow, List.range_succ, List.foldl_append]
  rfl

theorem polyModFrom_xor (m p n u v : Nat) :
    polyModFrom m p n (u ^^^ v) = polyModFrom m p n u ^^^ polyModFrom m p n v := by
  induction n generalizing u v with
  | zero => rfl
  | succ n ih =>
    rw [polyModFrom_succ, polyModFrom_succ, polyModFrom_succ, ← ih, Nat.testBit_xor]
    congr 1
    cases u.testBit (m + n) <;> cases v.testBit (m + n) <;> simp [Nat.xor_comm, Nat.xor_left_comm]

theorem polyModFrom_zero_right (m p n : Nat) : polyModFrom m p n 0 = 0 := by
  have h := polyModFrom_xor m p n 0 0
  rwa [Nat.xor_self, Nat.xor_self] at h

/-- Reducing e shifted by i places is i multiplications by x: each pass does one of them, once it meets the top bit. -/
theorem polyModFrom_shiftLeft {m p e n i : Nat} (hp : p / 2 ^ m = 1) (he : e < 2 ^ m) (hi : i ≤ n) :
    polyModFrom m p n (e <<< i) = (xtime m p)^[i] e := by
  induction n generalizing e i with
  | zero =>
    obtain rfl := Nat.le_zero.1 hi
    rfl
  | succ n ih =>
    rw [polyModFrom_succ]
    rcases hi.lt_or_eq with hlt | rfl
    · have hbit : (e <<< i).testBit (m + n) = false := by
        rw [Nat.testBit_shiftLeft, Nat.testBit_lt_two_pow (he.trans_le (Nat.pow_le_pow_right (by omega) (by omega))),
          Bool.and_false]
      rw [hbit]
      exact ih he (by omega)
    · have htop : (e <<< (n + 1)).testBit (m + n) = (e <<< 1).testBit m := by
        rw [Nat.add_comm n 1, Nat.shiftLeft_add, Nat.testBit_shiftLeft]
        simp
      have hpass : (if (e <<< (n + 1)).testBit (m + n) then e <<< (n + 1) ^^^ p <<< n else e <<< (n + 1)) =
          xtime m p e <<< n := by
        rw [htop, xtime, Nat.add_comm n 1, Nat.shiftLeft_add]
        split_ifs
        · rw [Nat.shiftLeft_xor_distrib]
        · rfl
      rw [hpass, ih (xtime_lt hp he) le_rfl, Function.iterate_succ_apply]

/-- Below the degree the powers of α are the powers of two. -/
theorem alphaPow_eq_two_pow {m p i : Nat} (hi : i < m) : alphaPow m p i = 2 ^ i := by
  induction i with
  | zero => rfl
  | succ i ih =>
    have hbit : (2 * 2 ^ i).testBit m = false := by
      rw [← pow_succ']
      exact Nat.testBit_lt_two_pow (Nat.pow_lt_pow_right (by omega) hi)
    rw [alphaPow, ih (by omega), xtime_eq, hbit, pow_succ']
    rfl

theorem mod_two_pow_succ_eq (x n : Nat) :
    x % 2 ^ (n + 1) = if x.testBit n then x % 2 ^ n ^^^ 2 ^ n else x % 2 ^ n := by
  have hbits : ∀ i, (x % 2 ^ (n + 1)).testBit i =
      ((x % 2 ^ n).testBit i ^^ (x.testBit n && (2 ^ n).testBit i)) := by
    intro i
    rw [Nat.testBit_mod_two_pow, Nat.testBit_mod_two_pow, Nat.testBit_two_pow]
    rcases lt_trichotomy i n with h | rfl | h
    · simp [h, h.ne', Nat.lt_succ_of_lt h]
    · simp
    · simp [h.ne, h.not_gt, Nat.not_lt.2 (Nat.succ_le_of_lt h)]
  refine Nat.eq_of_testBit_eq fun i => (hbits i).trans ?_
  split_ifs with h
  · rw [Nat.testBit_xor, h, Bool.true_and]
  · rw [Bool.not_eq_true] at h
    rw [h, Bool.false_and, Bool.xor_false]

section
variable {m p : Nat} (hv : ConfigIsValid m p 0) {a b : Elem}
include hv

/-- The product by the low n bits of b, one bit more at a time. -/
theorem gmul_low_toNat (ha : a.toNat < 2 ^ m) (hb : b.toNat < 2 ^ m) {n : Nat} (hn : n ≤ 16) :
    (gmul (builtGf m p) (BitVec.ofNat 16 (b.toNat % 2 ^ n)) a).toNat =
      polyModFrom m p 16 (clmulLow a.toNat b.toNat n) := by
  obtain ⟨-, hp, -⟩ := id hv
  induction n with
  | zero =>
    rw [pow_zero, Nat.mod_one]
    exact (congrArg BitVec.toNat (zero_gmul _ a)).trans (polyModFrom_zero_right m p 16).symm
  | succ n ih =>
    have ih := ih (by omega)
    rw [clmulLow_succ, mod_two_pow_succ_eq]
    split_ifs with hbit
    · have hnm : n < m := by
        by_contra h
        have hpow := Nat.pow_le_pow_right Nat.two_pos (not_lt.1 h)
        rw [Nat.testBit_lt_two_pow (hb.trans_le hpow)] at hbit
        cases hbit
      have hpow : (BitVec.ofNat 16 (2 ^ n)).toNat = alphaPow m p n :=
        (Nat.mod_eq_of_lt (Nat.pow_lt_pow_right (by omega) (by omega))).trans (alphaPow_eq_two_pow hnm).symm
      have hlow : (BitVec.ofNat 16 (b.toNat % 2 ^ n)).toNat < 2 ^ m :=
        (Nat.mod_le _ _).trans_lt ((Nat.mod_le _ _).trans_lt hb)
      have hsplit : BitVec.ofNat 16 (b.toNat % 2 ^ n ^^^ 2 ^ n) =
          gadd (BitVec.ofNat 16 (b.toNat % 2 ^ n)) (BitVec.ofNat 16 (2 ^ n)) := BitVec.ofNat_xor
      rw [hsplit, gadd_gmul hv hlow (hpow.trans_lt (alphaPow_lt hv n)) ha, gadd, BitVec.toNat_xor, ih,
        gmul_toNat_of_power hv hpow ha, polyModFrom_xor, polyModFrom_shiftLeft hp ha (by omega)]
    · exact ih

end

/-- Settles O19: with all 16 bits the product by the low bits of b is the product. -/
theorem gmulIsTheReducedCarrylessProduct : Obligations.GmulIsTheReducedCarrylessProduct := by
  intro m p hv a b ha hb
  have h := gmul_low_toNat hv ha hb le_rfl
  rw [Nat.mod_eq_of_lt b.isLt, BitVec.ofNat_toNat, BitVec.setWidth_eq] at h
  rw [gmul_comm, h]
  rfl

end Sys2Proof.Machine

/-! ## Evaluation and division in a built field (R201, R202, R204, R212, R235) -/

namespace Sys2Proof.Machine

/-! ### Sums over the field (R14) -/

theorem gsum_map_gadd {ι : Type} (l : List ι) (f g : ι → Elem) :
    gsum (l.map fun i => gadd (f i) (g i)) = gadd (gsum (l.map f)) (gsum (l.map g)) := by
  induction l with
  | nil => exact (gadd_zero 0).symm
  | cons i l ih => simp only [List.map_cons, gsum_cons, ih, gadd_gadd_gadd_comm]

theorem gsum_lt {m : Nat} {l : Poly} (hl : ∀ y ∈ l, y.toNat < 2 ^ m) : (gsum l).toNat < 2 ^ m := by
  induction l with
  | nil => exact zero_elem_lt m
  | cons y l ih =>
    obtain ⟨hy, hl⟩ := List.forall_mem_cons.1 hl
    rw [gsum_cons]
    exact gadd_lt hy (ih hl)

theorem getD_lt {m : Nat} {s : Poly} (hs : ∀ y ∈ s, y.toNat < 2 ^ m) (i : Nat) : (s.getD i 0).toNat < 2 ^ m := by
  by_cases hi : i < s.length
  · rw [List.getD_eq_getElem _ _ hi]
    exact hs _ (List.getElem_mem hi)
  · rw [List.getD_eq_default _ _ (not_lt.1 hi)]
    exact zero_elem_lt m

section
variable {m p : Nat} (hv : ConfigIsValid m p 0) {a c x : Elem}
include hv

theorem gmul_gsum_map {ι : Type} (hc : c.toNat < 2 ^ m) {l : List ι} {f : ι → Elem}
    (hf : ∀ i ∈ l, (f i).toNat < 2 ^ m) :
    gmul (builtGf m p) c (gsum (l.map f)) = gsum (l.map fun i => gmul (builtGf m p) c (f i)) := by
  induction l with
  | nil => exact gmul_zero _ _
  | cons i l ih =>
    obtain ⟨hi, hl⟩ := List.forall_mem_cons.1 hf
    have hsum : (gsum (l.map f)).toNat < 2 ^ m := gsum_lt (List.forall_mem_map.2 hl)
    rw [List.map_cons, List.map_cons, gsum_cons, gsum_cons, ← ih hl, gmul_gadd hv hc hi hsum]

theorem gpow_one (ha : a.toNat < 2 ^ m) : gpow (builtGf m p) a 1 = a := by
  rcases eq_or_ne a 0 with rfl | h0
  · exact zero_gpow _ Nat.one_ne_zero
  · exact BitVec.eq_of_toNat_eq (by rw [gpow_toNat hv h0, Nat.mul_one, alphaPow_logOf hv h0 ha])

theorem gpow_succ (ha : a.toNat < 2 ^ m) (e : Nat) :
    gpow (builtGf m p) a (e + 1) = gmul (builtGf m p) a (gpow (builtGf m p) a e) := by
  rw [Nat.add_comm, gpow_add hv, gpow_one hv ha]

end

/-! ### Evaluation as a sum of terms (R201, R202) -/

theorem evalA_cons (F : Gf) (c : Elem) (s : Poly) (x : Elem) :
    evalA F (c :: s) x = gadd (gmul F (evalA F s x) x) c := by
  rw [evalA, List.reverse_cons, evalD_append]
  rfl

section
variable {m p : Nat} (hv : ConfigIsValid m p 0) {r x : Elem} {s : Poly}
include hv

theorem evalD_eq_sum (hx : x.toNat < 2 ^ m) (hr : r.toNat < 2 ^ m) (hs : ∀ y ∈ s, y.toNat < 2 ^ m) :
    evalD (builtGf m p) r s x = gadd (gmul (builtGf m p) r (gpow (builtGf m p) x s.length))
      (gsum ((List.range s.length).map fun i =>
        gmul (builtGf m p) (s.getD i 0) (gpow (builtGf m p) x (s.length - 1 - i)))) := by
  induction s generalizing r with
  | nil => rw [List.length_nil, gpow_zero, gmul_one hv hr]; exact (gadd_zero r).symm
  | cons c s ih =>
    obtain ⟨hc, hs⟩ := List.forall_mem_cons.1 hs
    have hrx := gmul_lt hv hr hx
    have hpow := gpow_lt hv x s.length
    rw [evalD_cons, ih (gadd_lt hrx hc) hs, gadd_gmul hv hrx hc hpow, gmul_assoc hv hr hx hpow, ← gpow_succ hv hx,
      gadd_assoc, List.length_cons, List.range_succ_eq_map, List.map_cons, gsum_cons, List.map_map]
    simp only [Function.comp_def, Nat.succ_eq_add_one, List.getD_cons_succ, List.getD_cons_zero, Nat.add_sub_cancel,
      Nat.sub_zero, Nat.sub_sub, Nat.add_comm 1]

theorem evalA_eq_sum (hx : x.toNat < 2 ^ m) (hs : ∀ y ∈ s, y.toNat < 2 ^ m) :
    evalA (builtGf m p) s x = gsum ((List.range s.length).map fun i =>
      gmul (builtGf m p) (s.getD i 0) (gpow (builtGf m p) x i)) := by
  induction s with
  | nil => rfl
  | cons c s ih =>
    obtain ⟨hc, hs⟩ := List.forall_mem_cons.1 hs
    have hshift : ∀ i, gmul (builtGf m p) (s.getD i 0) (gpow (builtGf m p) x (i + 1)) =
        gmul (builtGf m p) x (gmul (builtGf m p) (s.getD i 0) (gpow (builtGf m p) x i)) := by
      intro i
      rw [gpow_succ hv hx, ← gmul_assoc hv (getD_lt hs i) hx (gpow_lt hv x i), gmul_comm _ _ x,
        gmul_assoc hv hx (getD_lt hs i) (gpow_lt hv x i)]
    rw [evalA_cons, ih hs, gmul_comm, gmul_gsum_map hv hx fun i _ => gmul_lt hv (getD_lt hs i) (gpow_lt hv x i),
      gadd_comm, List.length_cons, List.range_succ_eq_map, List.map_cons, gsum_cons, List.map_map]
    simp only [Function.comp_def, Nat.succ_eq_add_one, List.getD_cons_succ, List.getD_cons_zero, gpow_zero,
      gmul_one hv hc, hshift]

end

/-- Settles O27: each sum by induction on the sequence, with one factor x per place. -/
theorem evaluationIsTheSumOfTerms : Obligations.EvaluationIsTheSumOfTerms := by
  intro m p hv r x s t hr hx hs F n
  exact ⟨evalD_eq_sum hv hx hr hs, (evalD_append F r s t x).symm, evalA_eq_sum hv hx hs⟩

/-! ### Addition at the front as a sum of sequences -/

theorem addAtFront_comm (s t : Poly) : addAtFront s t = addAtFront t s := by
  induction s generalizing t with
  | nil => exact (addAtFront_nil_right t).symm
  | cons a s ih =>
    cases t with
    | nil => rfl
    | cons b t => rw [addAtFront, addAtFront, ih, gadd_comm]

theorem addAtFront_self (s : Poly) : addAtFront s s = zeros s.length := by
  induction s with
  | nil => rfl
  | cons a s ih => rw [addAtFront, ih, gadd_self]; rfl

theorem zeros_succ (n : Nat) : zeros (n + 1) = 0 :: zeros n := rfl

theorem zeros_succ_append (n : Nat) (s : Poly) : zeros (n + 1) ++ s = 0 :: (zeros n ++ s) := rfl

theorem zeros_addAtFront {n : Nat} {s : Poly} (h : n ≤ s.length) : addAtFront (zeros n) s = s := by
  induction n generalizing s with
  | zero => rfl
  | succ n ih =>
    cases s with
    | nil => cases h
    | cons a s =>
      rw [zeros_succ, addAtFront, zero_gadd, ih (Nat.le_of_succ_le_succ h)]

theorem zipWith_gadd {s t : Poly} (h : s.length = t.length) : List.zipWith gadd s t = addAtFront s t := by
  induction s generalizing t with
  | nil => rw [List.length_eq_zero_iff.1 h.symm]; rfl
  | cons a s ih =>
    cases t with
    | nil => cases h
    | cons b t => rw [List.zipWith_cons_cons, addAtFront, ih (Nat.succ.inj h)]

/-- Two parts side by side, each padded with zeros to the whole length. -/
theorem append_eq_addAtFront (s t : Poly) :
    s ++ t = addAtFront (s ++ zeros t.length) (zeros s.length ++ t) := by
  induction s with
  | nil => exact (zeros_addAtFront le_rfl).symm
  | cons a s ih =>
    rw [List.length_cons, zeros_succ_append, List.cons_append, List.cons_append, addAtFront, ← ih, gadd_zero]

theorem evalD_zeros_append (F : Gf) (n : Nat) (s : Poly) (x : Elem) :
    evalD F 0 (zeros n ++ s) x = evalD F 0 s x := by
  induction n with
  | zero => rfl
  | succ n ih =>
    rw [zeros_succ_append, evalD_cons, zero_gmul, gadd_zero, ih]

theorem zeros_elems_lt (m n : Nat) : ∀ y ∈ zeros n, y.toNat < 2 ^ m := by
  intro y hy
  rw [List.eq_of_mem_replicate hy]
  exact zero_elem_lt m

/-- Evaluation of a sum of sequences of one length. -/
theorem evalD_addAtFront_of_length_eq {m p : Nat} (hv : ConfigIsValid m p 0) {r r' x : Elem} {s t : Poly}
    (hlen : s.length = t.length) (hx : x.toNat < 2 ^ m) (hr : r.toNat < 2 ^ m) (hr' : r'.toNat < 2 ^ m)
    (hs : ∀ y ∈ s, y.toNat < 2 ^ m) (ht : ∀ y ∈ t, y.toNat < 2 ^ m) :
    evalD (builtGf m p) (gadd r r') (addAtFront s t) x =
      gadd (evalD (builtGf m p) r s x) (evalD (builtGf m p) r' t x) := by
  induction s generalizing r r' t with
  | nil => rw [List.length_eq_zero_iff.1 hlen.symm]; rfl
  | cons a s ih =>
    cases t with
    | nil => cases hlen
    | cons b t =>
      obtain ⟨ha, hs⟩ := List.forall_mem_cons.1 hs
      obtain ⟨hb, ht⟩ := List.forall_mem_cons.1 ht
      have hrx := gmul_lt hv hr hx
      have hrx' := gmul_lt hv hr' hx
      rw [addAtFront, evalD_cons, gadd_gmul hv hr hr' hx, gadd_gadd_gadd_comm]
      exact ih (Nat.succ.inj hlen) (gadd_lt hrx ha) (gadd_lt hrx' hb) hs ht

/-! ### Division (R204) -/

theorem scale_cons (F : Gf) (c a : Elem) (s : Poly) : scale F c (a :: s) = gmul F c a :: scale F c s := rfl

/-- A numerator shorter than the denominator is all remainder (R204). -/
theorem pdivmod_ok_of_length_lt {F : Gf} {a b q r : Poly} (h : pdivmod F a b = .ok (q, r))
    (hlen : a.length < b.length) : q = [] ∧ r = zeros (b.length - 1 - a.length) ++ a := by
  have hhead : b.head? ≠ some 0 := fun hz => nomatch (pdivmod_of_empty_or_zero_led (.inr hz)).symm.trans h
  have hpair := Except.ok.inj ((pdivmod_of_length_lt hhead hlen).symm.trans h)
  exact ⟨(congrArg Prod.fst hpair).symm, (congrArg Prod.snd hpair).symm⟩

section
variable {m p : Nat} (hv : ConfigIsValid m p 0)
include hv

/-- After n passes the quotient's product and what is left, n places further, add up to the working sequence. -/
theorem divLoop_spec {b0 : Elem} {bt w : Poly} {n : Nat} (h0 : b0 ≠ 0) (hb0 : b0.toNat < 2 ^ m)
    (hbt : ∀ y ∈ bt, y.toNat < 2 ^ m) (hw : ∀ y ∈ w, y.toNat < 2 ^ m) (hlen : n + bt.length ≤ w.length) :
    addAtFront (convolve (builtGf m p) (b0 :: bt) (divLoop (builtGf m p) b0 bt n w).1)
        (zeros n ++ (divLoop (builtGf m p) b0 bt n w).2) = w ∧
      (∀ y ∈ (divLoop (builtGf m p) b0 bt n w).1, y.toNat < 2 ^ m) ∧
      ∀ y ∈ (divLoop (builtGf m p) b0 bt n w).2, y.toNat < 2 ^ m := by
  induction n generalizing w with
  | zero => exact ⟨rfl, List.forall_mem_nil _, hw⟩
  | succ n ih =>
    cases w with
    | nil => exact absurd hlen (by simp)
    | cons h t =>
      obtain ⟨hh, ht⟩ := List.forall_mem_cons.1 hw
      have hc := gdivNz_lt hv hh b0
      have hscale := scale_elems_lt hv hc hbt
      have hlen : n + bt.length ≤ t.length := by rw [List.length_cons] at hlen; omega
      have hle : (scale (builtGf m p) (gdivNz (builtGf m p) h b0) bt).length ≤ t.length := by
        rw [scale_length]
        omega
      obtain ⟨hsum, hq, hr⟩ := ih (w := addAtFront t (scale (builtGf m p) (gdivNz (builtGf m p) h b0) bt))
        (addAtFront_elems_lt ht hscale) (by rw [addAtFront_length]; omega)
      refine ⟨?_, List.forall_mem_cons.2 ⟨hc, hq⟩, hr⟩
      rw [divLoop]
      dsimp only
      rw [convolve, scale_cons, zeros_succ_append, addAtFront, addAtFront, gdivNz_gmul_self hv h0 hb0 hh, gadd_zero,
        gadd_zero, addAtFront_assoc, hsum, addAtFront_comm t, ← addAtFront_assoc, addAtFront_self,
        zeros_addAtFront hle]

/-- The division identity of R204, and that quotient and remainder hold field elements. -/
theorem pdivmod_spec {a b q r : Poly} (ha : ∀ y ∈ a, y.toNat < 2 ^ m) (hb : ∀ y ∈ b, y.toNat < 2 ^ m)
    (hlen : b.length ≤ a.length) (h : pdivmod (builtGf m p) a b = .ok (q, r)) :
    addAtFront (pmul (builtGf m p) q b) (zeros (a.length - r.length) ++ r) = a ∧
      (∀ y ∈ q, y.toNat < 2 ^ m) ∧ ∀ y ∈ r, y.toNat < 2 ^ m := by
  obtain ⟨hne, -, hrlen⟩ := pdivmod_ok_length h
  obtain ⟨b0, bt, rfl⟩ := List.exists_cons_of_ne_nil hne
  obtain ⟨hb0, hbt⟩ := List.forall_mem_cons.1 hb
  have h0 : b0 ≠ 0 := by
    rintro rfl
    rw [pdivmod_of_empty_or_zero_led (.inr rfl)] at h
    cases h
  rw [pdivmod, if_neg h0, if_neg (not_lt.2 hlen)] at h
  obtain ⟨rfl, rfl⟩ := Prod.mk.inj (Except.ok.inj h)
  rw [pmul, if_neg (List.cons_ne_nil _ _), hrlen]
  simp only [List.length_cons, Nat.add_sub_cancel] at hlen ⊢
  rw [show a.length - bt.length = a.length - (bt.length + 1) + 1 by omega]
  exact divLoop_spec hv h0 hb0 hbt ha (by omega)

/-- The numerator's value is the quotient's times the denominator's plus the remainder's, at any lengths (R212). -/
theorem evalD_pdivmod {a b q r : Poly} {x : Elem} (hx : x.toNat < 2 ^ m) (ha : ∀ y ∈ a, y.toNat < 2 ^ m)
    (hb : ∀ y ∈ b, y.toNat < 2 ^ m) (h : pdivmod (builtGf m p) a b = .ok (q, r)) :
    evalD (builtGf m p) 0 a x = gadd (gmul (builtGf m p) (evalD (builtGf m p) 0 q x) (evalD (builtGf m p) 0 b x))
      (evalD (builtGf m p) 0 r x) := by
  obtain ⟨hne, hqlen, hrlen⟩ := pdivmod_ok_length h
  by_cases hlen : b.length ≤ a.length
  · obtain ⟨hsum, hq, hr⟩ := pdivmod_spec hv ha hb hlen h
    have hpos := List.length_pos_of_ne_nil hne
    have hq0 : q ≠ [] := List.ne_nil_of_length_pos (by omega)
    have hpad := List.forall_mem_append.2 ⟨zeros_elems_lt m (a.length - r.length), hr⟩
    have hwhole : (pmul (builtGf m p) q b).length = (zeros (a.length - r.length) ++ r).length := by
      rw [pmul_length _ q b hq0 hne, List.length_append, zeros_length]
      omega
    conv_lhs => rw [← hsum, ← gadd_zero 0]
    rw [evalD_addAtFront_of_length_eq hv hwhole hx (zero_elem_lt m) (zero_elem_lt m) (pmul_elems_lt hv hq hb) hpad,
      evalD_pmul hv hx hq0 hne hq hb, evalD_zeros_append]
  · obtain ⟨rfl, rfl⟩ := pdivmod_ok_of_length_lt h (not_le.1 hlen)
    rw [evalD_nil, zero_gmul, zero_gadd, evalD_zeros_append]

/-- Scaled addition is addition of the padded operands, one of them scaled (R205). -/
theorem evalD_paddsb {a b : Poly} {c x : Elem} (hx : x.toNat < 2 ^ m) (hc : c.toNat < 2 ^ m)
    (ha : ∀ y ∈ a, y.toNat < 2 ^ m) (hb : ∀ y ∈ b, y.toNat < 2 ^ m) :
    evalD (builtGf m p) 0 (paddsb (builtGf m p) a b c) x = gadd (evalD (builtGf m p) 0 a x)
      (gmul (builtGf m p) c (evalD (builtGf m p) 0 b x)) := by
  have hpad : ∀ {s : Poly} (n : Nat), (∀ y ∈ s, y.toNat < 2 ^ m) → ∀ y ∈ padLeft n s, y.toNat < 2 ^ m :=
    fun n hs => List.forall_mem_append.2 ⟨zeros_elems_lt m _, hs⟩
  have hsum : paddsb (builtGf m p) a b c = addAtFront (padLeft (max a.length b.length) a)
      (scale (builtGf m p) c (padLeft (max a.length b.length) b)) := by
    rw [← zipWith_gadd (by simp), scale, List.zipWith_map_right]
    rfl
  rw [hsum]
  conv_lhs => rw [← gadd_zero 0]
  rw [evalD_addAtFront_of_length_eq hv (by simp) hx (zero_elem_lt m) (zero_elem_lt m) (hpad _ ha)
      (scale_elems_lt hv hc (hpad _ hb)), evalD_scale_zero hv hx hc (hpad _ hb), padLeft, padLeft, evalD_zeros_append,
    evalD_zeros_append]

end

/-- Settles O31: the loop's identity, read on sequences of one length. -/
theorem numeratorIsQuotientTimesDenominatorPlusRemainder :
    Obligations.NumeratorIsQuotientTimesDenominatorPlusRemainder := by
  intro m p hv a b q r ha hb hlen h F
  obtain ⟨hne, hqlen, hrlen⟩ := pdivmod_ok_length h
  obtain ⟨hsum, hq, hr⟩ := pdivmod_spec hv ha hb hlen h
  refine ⟨?_, hq, hr⟩
  have hpos := List.length_pos_of_ne_nil hne
  rw [← zeros, zipWith_gadd, hsum]
  rw [pmul_length F q b (List.ne_nil_of_length_pos (by omega)) hne, List.length_append, zeros_length]
  omega

/-- Settles O32: product, scaled sum and division, each by its own evaluation lemma. -/
theorem evaluationIsARingHomomorphism : Obligations.EvaluationIsARingHomomorphism := by
  intro m p hv a b c x ha hb hc hx F
  refine ⟨?_, fun ha0 hb0 => evalD_pmul hv hx ha0 hb0 ha hb, evalD_paddsb hv hx hc ha hb,
    fun q r _ h => evalD_pdivmod hv hx ha hb h⟩
  rw [evalA, List.reverse_reverse]

/-! ### Encoded blocks (R235) -/

section
variable {m p : Nat} (hv : ConfigIsValid m p 0) {d b : Nat} {msg ecc : Poly} {x : Elem}
include hv

/-- The value of a block is that of its two parts, the message moved up by the ECC's length. -/
theorem evalD_append_eq (hx : x.toNat < 2 ^ m) (hmsg : ∀ y ∈ msg, y.toNat < 2 ^ m) (hecc : ∀ y ∈ ecc, y.toNat < 2 ^ m) :
    evalD (builtGf m p) 0 (msg ++ ecc) x =
      gadd (evalD (builtGf m p) 0 (msg ++ zeros ecc.length) x) (evalD (builtGf m p) 0 ecc x) := by
  have h0 := zero_elem_lt m
  conv_lhs => rw [append_eq_addAtFront, ← gadd_zero 0]
  rw [evalD_addAtFront_of_length_eq hv (by simp) hx h0 h0 (List.forall_mem_append.2 ⟨hmsg, zeros_elems_lt m _⟩)
    (List.forall_mem_append.2 ⟨zeros_elems_lt m _, hecc⟩), evalD_zeros_append]

omit hv in
theorem enc_ok {F : Gf} {g : Poly} (h : enc F g msg = .ok ecc) :
    ∃ q, pdivmod F (msg ++ zeros (g.length - 1)) g = .ok (q, ecc) := by
  rw [enc] at h
  cases hdiv : pdivmod F (msg ++ zeros (g.length - 1)) g with
  | error e => rw [hdiv] at h; cases h
  | ok qr => rw [hdiv] at h; cases h; exact ⟨qr.1, rfl⟩

theorem enc_elems_lt {g : Poly} (hmsg : ∀ y ∈ msg, y.toNat < 2 ^ m) (hg : ∀ y ∈ g, y.toNat < 2 ^ m)
    (h : enc (builtGf m p) g msg = .ok ecc) : ∀ y ∈ ecc, y.toNat < 2 ^ m := by
  obtain ⟨q, hdiv⟩ := enc_ok h
  have hnum := List.forall_mem_append.2 ⟨hmsg, zeros_elems_lt m (g.length - 1)⟩
  by_cases hlen : g.length ≤ (msg ++ zeros (g.length - 1)).length
  · obtain ⟨-, -, hr⟩ := pdivmod_spec hv hnum hg hlen hdiv
    exact hr
  · obtain ⟨-, rfl⟩ := pdivmod_ok_of_length_lt hdiv (not_le.1 hlen)
    exact List.forall_mem_append.2 ⟨zeros_elems_lt m _, hnum⟩

section
variable (hmsg : ∀ y ∈ msg, y.toNat < 2 ^ m) (h : enc (builtGf m p) (gen (builtGf m p) d b) msg = .ok ecc)
include hmsg h

/-- The block is the numerator plus the remainder, so where G vanishes the remainder's value cancels. -/
theorem evalD_encoded {i : Nat} (hi : i < d) :
    evalD (builtGf m p) 0 (msg ++ ecc) (alpha (builtGf m p) (b + i)) = 0 := by
  have hg := gen_elems_lt hv d b
  have hx := alpha_lt hv (b + i)
  obtain ⟨q, hdiv⟩ := enc_ok h
  have hnum := List.forall_mem_append.2 ⟨hmsg, zeros_elems_lt m ((gen (builtGf m p) d b).length - 1)⟩
  rw [evalD_append_eq hv hx hmsg (enc_elems_lt hv hmsg hg h), enc_length _ h, evalD_pdivmod hv hx hnum hg hdiv,
    evalD_gen_alpha hv d b i hi, gmul_zero, zero_gadd, gadd_self]

theorem syn_encoded : syn (builtGf m p) msg ecc d b = zeros d := by
  refine List.eq_replicate_iff.2 ⟨syn_length _ _ _ _ _, ?_⟩
  rw [syn_eq]
  refine List.forall_mem_map.2 fun i hi => ?_
  rw [Nat.add_comm]
  exact evalD_encoded hv hmsg h (List.mem_range.1 hi)

end
end

/-- Settles O37: the encoded block is a multiple of G. -/
theorem encodedBlockHasZeroSyndromes : Obligations.EncodedBlockHasZeroSyndromes := by
  intro m p hv d b msg ecc hmsg h
  exact ⟨fun i hi => evalD_encoded hv hmsg h hi, syn_encoded hv hmsg h⟩

end Sys2Proof.Machine

/-! ## Berlekamp–Massey (R252, R254) -/

namespace Sys2Proof.Machine

/-! ### The loop, pass by pass -/

/-- The variables of R252's loop after n passes. -/
def bmPasses (F : Gf) (S : Poly) (n : Nat) : BmState := (List.range n).foldl (bmStep F S) bmInit

theorem bmPasses_succ (F : Gf) (S : Poly) (n : Nat) :
    bmPasses F S (n + 1) = bmStep F S (bmPasses F S n) n := by
  rw [bmPasses, List.range_succ, List.foldl_append]
  rfl

theorem bmRun_eq (F : Gf) (S : Poly) : bmRun F S = bmPasses F S S.length := rfl

section
variable {F : Gf} {S : Poly} {st : BmState} {n : Nat}

theorem bmStep_of_delta_zero (h : bmDelta F S st n = 0) : bmStep F S st n = { st with m := st.m + 1 } := if_pos h

theorem bmStep_of_longer (h : bmDelta F S st n ≠ 0) (hl : 2 * st.l ≤ n) : bmStep F S st n =
    ⟨bmUpdate F st (bmDelta F S st n), st.c, n + 1 - st.l, 1, bmDelta F S st n⟩ :=
  (if_neg h).trans (if_pos hl)

theorem bmStep_of_same_length (h : bmDelta F S st n ≠ 0) (hl : n < 2 * st.l) : bmStep F S st n =
    { st with c := bmUpdate F st (bmDelta F S st n), m := st.m + 1 } :=
  (if_neg h).trans (if_neg (not_le.2 hl))

end

/-! ### The shape of C and B (R252) -/

/-- After n passes, with B the polynomial of length lb that the last change of length put aside: C and B end where their
lengths say, and the lengths and the passes since then add up. -/
structure BmShape (n : Nat) (st : BmState) (lb : Nat) : Prop where
  lengths : lb + st.l + st.m = n + 1
  m_pos : 1 ≤ st.m
  c_zero : coef st.c 0 = 1
  c_above : ∀ j, st.l < j → coef st.c j = 0
  b_above : ∀ j, lb < j → coef st.b j = 0
  bb_ne_zero : st.bb ≠ 0

theorem bmShape_init : BmShape 0 bmInit 0 where
  lengths := rfl
  m_pos := le_rfl
  c_zero := rfl
  c_above j hj := List.getD_eq_default _ _ hj
  b_above j hj := List.getD_eq_default _ _ hj
  bb_ne_zero := by decide

theorem zeros_getD (n i : Nat) : (zeros n).getD i 0 = 0 := by
  rw [zeros, List.getD_eq_getElem?_getD, List.getElem?_getD_replicate_default_eq]

/-- Place j of x^k · s. -/
theorem zeros_append_getD (k : Nat) (s : Poly) (j : Nat) :
    (zeros k ++ s).getD j 0 = if j < k then 0 else s.getD (j - k) 0 := by
  split_ifs with h
  · rw [List.getD_append _ _ _ _ (by simpa using h), zeros_getD]
  · rw [List.getD_append_right _ _ _ _ (by simpa using h), zeros_length]

section
variable {F : Gf} {S : Poly} {st : BmState} {n lb : Nat} {delta : Elem}

theorem coef_bmUpdate (j : Nat) : coef (bmUpdate F st delta) j = gadd (coef st.c j)
    (if j < st.m then 0 else gmul F (gdivNz F delta st.bb) (coef st.b (j - st.m))) := by
  rw [coef, bmUpdate, addAtFront_getD, zeros_append_getD, scale_getD]
  rfl

theorem BmShape.l_le (h : BmShape n st lb) : st.l ≤ n := by
  have := h.lengths
  have := h.m_pos
  omega

theorem BmShape.bmUpdate_zero (h : BmShape n st lb) : coef (bmUpdate F st delta) 0 = 1 := by
  have hm : 0 < st.m := h.m_pos
  rw [coef_bmUpdate, if_pos hm, gadd_zero, h.c_zero]

/-- C's new part ends at place lb + m, which a change of length takes as the new length. -/
theorem BmShape.bmUpdate_above (h : BmShape n st lb) {j : Nat} (hl : st.l < j) (hm : lb + st.m < j) :
    coef (bmUpdate F st delta) j = 0 := by
  rw [coef_bmUpdate, if_neg (by omega), h.c_above j hl, h.b_above _ (by omega), gmul_zero, gadd_zero]

theorem BmShape.keep (h : BmShape n st lb) : BmShape (n + 1) { st with m := st.m + 1 } lb :=
  { h with lengths := congrArg (· + 1) h.lengths, m_pos := Nat.le_add_left 1 _ }

theorem BmShape.lengthen (h : BmShape n st lb) (hd : delta ≠ 0) (hl : 2 * st.l ≤ n) :
    BmShape (n + 1) ⟨bmUpdate F st delta, st.c, n + 1 - st.l, 1, delta⟩ st.l where
  lengths := by dsimp only; omega
  m_pos := le_rfl
  c_zero := h.bmUpdate_zero
  c_above j (hj : n + 1 - st.l < j) := h.bmUpdate_above (by omega) (by have := h.lengths; omega)
  b_above := h.c_above
  bb_ne_zero := hd

theorem BmShape.adjust (h : BmShape n st lb) (hl : n < 2 * st.l) :
    BmShape (n + 1) { st with c := bmUpdate F st delta, m := st.m + 1 } lb :=
  { h.keep with
    c_zero := h.bmUpdate_zero
    c_above := fun j (hj : st.l < j) => h.bmUpdate_above hj (by have := h.lengths; omega) }

theorem BmShape.step (h : BmShape n st lb) : ∃ lb', BmShape (n + 1) (bmStep F S st n) lb' := by
  by_cases hd : bmDelta F S st n = 0
  · exact ⟨lb, bmStep_of_delta_zero hd ▸ h.keep⟩
  · rcases le_or_gt (2 * st.l) n with hl | hl
    · exact ⟨st.l, bmStep_of_longer hd hl ▸ h.lengthen hd hl⟩
    · exact ⟨lb, bmStep_of_same_length hd hl ▸ h.adjust hl⟩

end

theorem exists_bmShape (F : Gf) (S : Poly) (n : Nat) : ∃ lb, BmShape n (bmPasses F S n) lb := by
  induction n with
  | zero => exact ⟨0, bmShape_init⟩
  | succ n ih =>
    obtain ⟨lb, h⟩ := ih
    rw [bmPasses_succ]
    exact h.step

/-! ### The locator (R252) -/

/-- A nonzero last element stops strip. -/
theorem strip_append_of_ne_zero (s : Poly) {c : Elem} (hc : c ≠ 0) : strip (s ++ [c]) = strip s ++ [c] := by
  have hlast : strip [c] = [c] := List.dropWhile_cons_of_neg (by simpa using hc)
  rw [strip, List.dropWhile_append]
  split_ifs with h
  · rw [strip, List.isEmpty_iff.1 h]
    exact hlast
  · rfl

/-- The locator ends in the coefficient of x^0. -/
theorem exists_bm_eq (F : Gf) (S : Poly) : ∃ s, bm F S = s ++ [1] := by
  obtain ⟨lb, h⟩ := exists_bmShape F S S.length
  refine ⟨strip (((List.range (bmRun F S).l).map Nat.succ).reverse.map (coef (bmRun F S).c)), ?_⟩
  rw [← strip_append_of_ne_zero _ (by decide), bm, List.range_succ_eq_map, List.reverse_cons, List.map_append,
    List.map_singleton, bmRun_eq, h.c_zero]

/-- Settles O40: every pass keeps the shape of C and B. -/
theorem locatorLoopKeepsItsInvariants : Obligations.LocatorLoopKeepsItsInvariants := by
  intro F S st
  obtain ⟨lb, h⟩ := exists_bmShape F S S.length
  obtain ⟨s, hs⟩ := exists_bm_eq F S
  exact ⟨h.c_zero, h.c_above, bmRun_l_le F S, h.bb_ne_zero, by rw [hs, List.getLast?_append]; rfl,
    strip_head?_ne_zero _, bm_length_le F S⟩

/-! ### The discrepancies are places of the product of C and S (R254) -/

theorem gsum_append_zero (l : Poly) : gsum (l ++ [0]) = gsum l := by
  rw [gsum, List.foldl_append]
  exact gadd_zero _

/-- Terms that vanish from place l on can be left out of a sum. -/
theorem gsum_map_range_of_zero {l n : Nat} (hl : l ≤ n) {f : Nat → Elem} (hf : ∀ i, l ≤ i → f i = 0) :
    gsum ((List.range n).map f) = gsum ((List.range l).map f) := by
  induction n, hl using Nat.le_induction with
  | base => rfl
  | succ n hln ih => rw [List.range_succ, List.map_append, List.map_singleton, hf n hln, gsum_append_zero, ih]

theorem pmul_zero_cons_getD_succ (F : Gf) (a b : Poly) (k : Nat) :
    (pmul F (0 :: a) b).getD (k + 1) 0 = (pmul F a b).getD k 0 := by
  rw [pmul, pmul]
  split_ifs
  · rfl
  · rw [convolve, addAtFront_getD, scale_getD, zero_gmul, zero_gadd, List.getD_cons_succ]

/-- x^j times a has a's product with b, j places further. -/
theorem pmul_zeros_append_getD (F : Gf) (a b : Poly) (j k : Nat) :
    (pmul F (zeros j ++ a) b).getD (k + j) 0 = (pmul F a b).getD k 0 := by
  induction j with
  | zero => rfl
  | succ j ih => rw [zeros_succ_append, ← Nat.add_assoc, pmul_zero_cons_getD_succ, ih]

section
variable {m p : Nat} (hv : ConfigIsValid m p 0) {a a' b S : Poly} {c delta : Elem} {st : BmState} {n lb k : Nat}
include hv

theorem pmul_addAtFront_getD (ha : ∀ y ∈ a, y.toNat < 2 ^ m) (ha' : ∀ y ∈ a', y.toNat < 2 ^ m)
    (hb : ∀ y ∈ b, y.toNat < 2 ^ m) (k : Nat) : (pmul (builtGf m p) (addAtFront a a') b).getD k 0 =
      gadd ((pmul (builtGf m p) a b).getD k 0) ((pmul (builtGf m p) a' b).getD k 0) := by
  simp only [pmul_getD, addAtFront_getD, ← gsum_map_gadd, gadd_gmul hv (getD_lt ha _) (getD_lt ha' _) (getD_lt hb _)]

theorem pmul_scale_getD (hc : c.toNat < 2 ^ m) (ha : ∀ y ∈ a, y.toNat < 2 ^ m) (hb : ∀ y ∈ b, y.toNat < 2 ^ m)
    (k : Nat) : (pmul (builtGf m p) (scale (builtGf m p) c a) b).getD k 0 =
      gmul (builtGf m p) c ((pmul (builtGf m p) a b).getD k 0) := by
  rw [pmul_getD, pmul_getD, gmul_gsum_map hv hc fun i _ => gmul_lt hv (getD_lt ha i) (getD_lt hb (k - i))]
  simp only [scale_getD, gmul_assoc hv hc (getD_lt ha _) (getD_lt hb _)]

/-- The discrepancy for index n is place n of C · S, when C has its shape. -/
theorem BmShape.delta_eq (h : BmShape n st lb) {k : Nat} (hk : st.l ≤ k) (hS : ∀ y ∈ S, y.toNat < 2 ^ m) :
    bmDelta (builtGf m p) S st k = (pmul (builtGf m p) st.c S).getD k 0 := by
  have hzero : ∀ i, st.l ≤ i → gmul (builtGf m p) (coef st.c (i + 1)) (coef S (k - (i + 1))) = 0 := fun i hi => by
    rw [h.c_above _ (by omega), zero_gmul]
  have hc : st.c.getD 0 0 = 1 := h.c_zero
  rw [pmul_getD, List.range_succ_eq_map, List.map_cons, gsum_cons, List.map_map, hc, one_gmul hv (getD_lt hS _),
    bmDelta, ← gsum_map_range_of_zero hk hzero]
  rfl

/-- Place k of the updated C · S, at or after the places that B moves. -/
theorem pmul_bmUpdate_getD (hd : delta.toNat < 2 ^ m) (hc : ∀ y ∈ st.c, y.toNat < 2 ^ m)
    (hb : ∀ y ∈ st.b, y.toNat < 2 ^ m) (hS : ∀ y ∈ S, y.toNat < 2 ^ m) (k : Nat) :
    (pmul (builtGf m p) (bmUpdate (builtGf m p) st delta) S).getD (k + st.m) 0 =
      gadd ((pmul (builtGf m p) st.c S).getD (k + st.m) 0)
        (gmul (builtGf m p) (gdivNz (builtGf m p) delta st.bb) ((pmul (builtGf m p) st.b S).getD k 0)) := by
  have hdiv := gdivNz_lt hv hd st.bb
  have hscale := scale_elems_lt hv hdiv hb
  rw [bmUpdate, pmul_addAtFront_getD hv hc (List.forall_mem_append.2 ⟨zeros_elems_lt m _, hscale⟩) hS,
    pmul_zeros_append_getD, pmul_scale_getD hv hdiv hb hS]

theorem bmUpdate_elems_lt (hd : delta.toNat < 2 ^ m) (hc : ∀ y ∈ st.c, y.toNat < 2 ^ m)
    (hb : ∀ y ∈ st.b, y.toNat < 2 ^ m) : ∀ y ∈ bmUpdate (builtGf m p) st delta, y.toNat < 2 ^ m :=
  addAtFront_elems_lt hc
    (List.forall_mem_append.2 ⟨zeros_elems_lt m _, scale_elems_lt hv (gdivNz_lt hv hd st.bb) hb⟩)

theorem bmDelta_lt (hS : ∀ y ∈ S, y.toNat < 2 ^ m) (hc : ∀ y ∈ st.c, y.toNat < 2 ^ m) (n : Nat) :
    (bmDelta (builtGf m p) S st n).toNat < 2 ^ m :=
  gadd_lt (getD_lt hS n) (gsum_lt (List.forall_mem_map.2 fun _ _ => gmul_lt hv (getD_lt hc _) (getD_lt hS _)))

end

/-! ### C generates the syndromes read so far (R254) -/

/-- After n passes: C · S vanishes from place L up to place n, and B · S did so up to the place of its last discrepancy,
which was bb. -/
structure BmGenerates (m p : Nat) (S : Poly) (n : Nat) (st : BmState) (lb : Nat) : Prop extends BmShape n st lb where
  c_elems : ∀ y ∈ st.c, y.toNat < 2 ^ m
  b_elems : ∀ y ∈ st.b, y.toNat < 2 ^ m
  bb_elem : st.bb.toNat < 2 ^ m
  c_vanishes : ∀ k, st.l ≤ k → k < n → (pmul (builtGf m p) st.c S).getD k 0 = 0
  b_vanishes : ∀ k, lb ≤ k → k + st.m < n → (pmul (builtGf m p) st.b S).getD k 0 = 0
  b_last : ∀ k, k + st.m = n → (pmul (builtGf m p) st.b S).getD k 0 = st.bb

section
variable {m p : Nat} (hv : ConfigIsValid m p 0) {S : Poly} {st : BmState} {n lb : Nat}
include hv

theorem bmGenerates_init (S : Poly) : BmGenerates m p S 0 bmInit 0 where
  __ := bmShape_init
  c_elems := List.forall_mem_singleton.2 (one_elem_lt hv)
  b_elems := List.forall_mem_singleton.2 (one_elem_lt hv)
  bb_elem := one_elem_lt hv
  c_vanishes _ _ hk := absurd hk (Nat.not_lt_zero _)
  b_vanishes _ _ hk := absurd hk (Nat.not_lt_zero _)
  b_last _ hk := absurd hk (Nat.succ_ne_zero _)

/-- The update cancels the discrepancy for index n and makes none before it. -/
theorem BmGenerates.bmUpdate_vanishes (h : BmGenerates m p S n st lb) (hS : ∀ y ∈ S, y.toNat < 2 ^ m) (hn : st.l ≤ n)
    {k : Nat} (hl : st.l ≤ k) (hm : lb + st.m ≤ k) (hk : k < n + 1) :
    (pmul (builtGf m p) (bmUpdate (builtGf m p) st (bmDelta (builtGf m p) S st n)) S).getD k 0 = 0 := by
  have hd := bmDelta_lt hv hS h.c_elems n
  obtain ⟨j, rfl⟩ : ∃ j, k = j + st.m := ⟨k - st.m, by omega⟩
  rw [pmul_bmUpdate_getD hv hd h.c_elems h.b_elems hS]
  rcases (Nat.lt_succ_iff_lt_or_eq.1 hk) with hlt | heq
  · rw [h.c_vanishes _ hl hlt, h.b_vanishes j (by omega) hlt, gmul_zero, gadd_zero]
  · rw [h.b_last j heq, gdivNz_gmul_self hv h.bb_ne_zero h.bb_elem hd, heq, ← h.toBmShape.delta_eq hv hn hS, gadd_self]

theorem BmGenerates.step (h : BmGenerates m p S n st lb) (hS : ∀ y ∈ S, y.toNat < 2 ^ m) :
    ∃ lb', BmGenerates m p S (n + 1) (bmStep (builtGf m p) S st n) lb' := by
  have hlen := h.lengths
  have hn := h.l_le
  have hdelta := h.delta_eq hv hn hS
  have hd := bmDelta_lt hv hS h.c_elems n
  have hupdate := bmUpdate_elems_lt hv hd h.c_elems h.b_elems
  have hb : ∀ k, lb ≤ k → k + (st.m + 1) < n + 1 → (pmul (builtGf m p) st.b S).getD k 0 = 0 := fun k hk hlt =>
    h.b_vanishes k hk (by omega)
  have hlast : ∀ k, k + (st.m + 1) = n + 1 → (pmul (builtGf m p) st.b S).getD k 0 = st.bb := fun k hk =>
    h.b_last k (by omega)
  by_cases h0 : bmDelta (builtGf m p) S st n = 0
  · rw [bmStep_of_delta_zero h0]
    refine ⟨lb, { h with toBmShape := h.keep, b_vanishes := hb, b_last := hlast, c_vanishes := fun k hk hlt => ?_ }⟩
    rcases Nat.lt_succ_iff_lt_or_eq.1 hlt with hlt | rfl
    · exact h.c_vanishes k hk hlt
    · exact hdelta.symm.trans h0
  rcases le_or_gt (2 * st.l) n with hl | hl
  · rw [bmStep_of_longer h0 hl]
    refine ⟨st.l, { h.lengthen h0 hl with
      c_elems := hupdate, b_elems := h.c_elems, bb_elem := hd
      c_vanishes := fun k (hk : n + 1 - st.l ≤ k) hlt => h.bmUpdate_vanishes hv hS hn (by omega) (by omega) hlt
      b_vanishes := fun k hk (hlt : k + 1 < n + 1) => h.c_vanishes k hk (by omega)
      b_last := fun k (hk : k + 1 = n + 1) => ?_ }⟩
    obtain rfl : k = n := by omega
    exact hdelta.symm
  · rw [bmStep_of_same_length h0 hl]
    exact ⟨lb, { h with
      toBmShape := h.adjust hl, c_elems := hupdate, b_vanishes := hb, b_last := hlast
      c_vanishes := fun k hk hlt => h.bmUpdate_vanishes hv hS hn hk (by dsimp only at hk; omega) hlt }⟩

end

theorem exists_bmGenerates {m p : Nat} (hv : ConfigIsValid m p 0) {S : Poly} (hS : ∀ y ∈ S, y.toNat < 2 ^ m) (n : Nat) :
    ∃ lb, BmGenerates m p S n (bmPasses (builtGf m p) S n) lb := by
  induction n with
  | zero => exact ⟨0, bmGenerates_init hv S⟩
  | succ n ih =>
    obtain ⟨lb, h⟩ := ih
    rw [bmPasses_succ]
    exact h.step hv hS

/-- Settles O41: the discrepancies of the final C from L on are places of C · S, which vanish. -/
theorem locatorGeneratesTheSyndromes : Obligations.LocatorGeneratesTheSyndromes := by
  intro m p hv S hS F st n hl hn
  obtain ⟨lb, h⟩ := exists_bmGenerates hv hS S.length
  exact (h.delta_eq hv hl hS).trans (h.c_vanishes n hl hn)

end Sys2Proof.Machine

/-! ## Decoding a block without error and with one (R265, R267) -/

namespace Sys2Proof.Machine

/-! ### Sequences with one member -/

theorem eq_singleton_of_nodup {l : List Nat} {a : Nat} (hl : l.Nodup) (h : ∀ x, x ∈ l ↔ x = a) : l = [a] :=
  List.perm_singleton.1 ((List.perm_ext_iff_of_nodup hl (List.nodup_singleton a)).2 fun x => by
    rw [h, List.mem_singleton])

/-! ### No error: all syndromes are zero (R267) -/

section
variable {F : Gf} {msg ecc : Poly} {d b : Nat}

theorem coef_zeros (d i : Nat) : coef (zeros d) i = 0 := zeros_getD d i

theorem bmPasses_zeros (F : Gf) (d n : Nat) : bmPasses F (zeros d) n = { bmInit with m := n + 1 } := by
  induction n with
  | zero => rfl
  | succ n ih =>
    have hd : bmDelta F (zeros d) { bmInit with m := n + 1 } n = 0 := by
      rw [bmDelta, coef_zeros]
      exact gadd_zero 0
    rw [bmPasses_succ, ih, bmStep_of_delta_zero hd]

theorem bm_zeros (F : Gf) (d : Nat) : bm F (zeros d) = [1] := by
  rw [bm, bmRun_eq, bmPasses_zeros]
  rfl

theorem evalA_singleton (F : Gf) (c x : Elem) : evalA F [c] x = c := by
  rw [evalA_cons]
  exact (congrArg (gadd · c) (zero_gmul F x)).trans (zero_gadd c)

/-- The locator 1 has no root. -/
theorem chien_one (F : Gf) (n : Nat) : chien F [1] n = ([], true) := by
  have hlocs : chienLocs F [1] n = [] := by
    rw [chienLocs, List.filter_eq_nil_iff.2, List.map_nil]
    intro i _
    rw [evalA_singleton]
    decide
  rw [chien, hlocs]
  rfl

theorem forney_nil (F : Gf) (msg S lam : Poly) (b : Nat) : forney F msg S lam [] b = .ok msg :=
  forney_of_not_dividesByZero (by simp [forneyDividesByZero, positions])

theorem dec_of_syn_eq_zeros (h : syn F msg ecc d b = zeros d) : dec F msg ecc d b = .ok (msg, true, 0) := by
  have hchien : chien F (bm F (syn F msg ecc d b)) (msg.length + ecc.length) = ([], true) := by
    rw [h, bm_zeros, chien_one]
  rw [dec_of_rootCount_holds (out := msg) (by rw [hchien]) (by rw [hchien]; exact forney_nil _ _ _ _ _), hchien]
  rfl

end

/-! ### One error: the syndromes are a geometric sequence -/

section
variable {m p : Nat} (hv : ConfigIsValid m p 0)
include hv

/-- Powers of powers of α commute. -/
theorem gpow_alpha_comm (i j : Nat) :
    gpow (builtGf m p) (alpha (builtGf m p) i) j = gpow (builtGf m p) (alpha (builtGf m p) j) i := by
  obtain ⟨⟨hm, -⟩, -⟩ := id hv
  have hpow : ∀ i j, (gpow (builtGf m p) (alpha (builtGf m p) i) j).toNat = alphaPow m p (i * j) := fun i j => by
    have hlog : (builtGf m p).logOf (alpha (builtGf m p) i) = i % groupOrder m :=
      logOf_expAt hv (Nat.mod_lt _ (groupOrder_pos hm))
    rw [gpow_toNat hv (alpha_ne_zero hv i), hlog, ← alphaPow_mod hv, Nat.mod_mul_mod, alphaPow_mod hv]
  exact BitVec.eq_of_toNat_eq (by rw [hpow, hpow, Nat.mul_comm])

theorem gpow_gmul_gpow_ginvNz {a : Elem} (h0 : a ≠ 0) (ha : a.toNat < 2 ^ m) (e : Nat) :
    gmul (builtGf m p) (gpow (builtGf m p) a e) (gpow (builtGf m p) (ginvNz (builtGf m p) a) e) = 1 := by
  have hi := ginvNz_lt hv a
  induction e with
  | zero => exact gmul_one hv (one_elem_lt hv)
  | succ e ih =>
    have hpa := gpow_lt hv a e
    have hpi := gpow_lt hv (ginvNz (builtGf m p) a) e
    rw [gpow_succ hv ha, gpow_succ hv hi, gmul_comm _ a, gmul_assoc hv hpa ha (gmul_lt hv hi hpi),
      ← gmul_assoc hv ha hi hpi, gmul_ginvNz_self hv h0 ha, one_gmul hv hpi, ih]

theorem evalD_gadd_left {r e x : Elem} {s : Poly} (hx : x.toNat < 2 ^ m) (hr : r.toNat < 2 ^ m) (he : e.toNat < 2 ^ m)
    (hs : ∀ y ∈ s, y.toNat < 2 ^ m) : evalD (builtGf m p) (gadd r e) s x =
      gadd (evalD (builtGf m p) r s x) (gmul (builtGf m p) e (gpow (builtGf m p) x s.length)) := by
  rw [evalD_eq_sum hv hx (gadd_lt hr he) hs, evalD_eq_sum hv hx hr hs, gadd_gmul hv hr he (gpow_lt hv x _), gadd_assoc,
    gadd_assoc, gadd_comm (gsum _)]

/-- An error e at one place adds e times the power of x of that place. -/
theorem evalD_set_gadd {r e x : Elem} {s : Poly} {i : Nat} (hx : x.toNat < 2 ^ m) (hr : r.toNat < 2 ^ m)
    (he : e.toNat < 2 ^ m) (hs : ∀ y ∈ s, y.toNat < 2 ^ m) (hi : i < s.length) :
    evalD (builtGf m p) r (s.set i (gadd (s.getD i 0) e)) x =
      gadd (evalD (builtGf m p) r s x) (gmul (builtGf m p) e (gpow (builtGf m p) x (s.length - 1 - i))) := by
  induction s generalizing r i with
  | nil => exact absurd hi (Nat.not_lt_zero i)
  | cons c s ih =>
    obtain ⟨hc, hs⟩ := List.forall_mem_cons.1 hs
    have hrc := gadd_lt (gmul_lt hv hr hx) hc
    cases i with
    | zero =>
      rw [List.set_cons_zero, List.getD_cons_zero, evalD_cons, evalD_cons, ← gadd_assoc,
        evalD_gadd_left hv hx hrc he hs]
      rfl
    | succ i =>
      rw [List.set_cons_succ, List.getD_cons_succ, evalD_cons, evalD_cons, ih hrc hs (Nat.lt_of_succ_lt_succ hi),
        List.length_cons, Nat.add_sub_cancel, Nat.sub_sub, Nat.add_comm 1]

end

/-! ### The locator of one error (R252) -/

/-- The d syndromes of an error e at a place whose position element is X (R250). -/
def errorSyndromes (F : Gf) (e X : Elem) (d b : Nat) : Poly :=
  (List.range d).map fun i => gmul F e (gpow F X (i + b))

theorem coef_errorSyndromes (F : Gf) (e X : Elem) {d i : Nat} (b : Nat) (hi : i < d) :
    coef (errorSyndromes F e X d b) i = gmul F e (gpow F X (i + b)) := map_range_getD hi _

@[simp] theorem errorSyndromes_length (F : Gf) (e X : Elem) (d b : Nat) : (errorSyndromes F e X d b).length = d := by
  simp [errorSyndromes]

theorem bmDelta_of_l_one {F : Gf} {st : BmState} (h : st.l = 1) (S : Poly) (n : Nat) :
    bmDelta F S st n = gadd (coef S n) (gmul F (coef st.c 1) (coef S (n - 1))) := by
  rw [bmDelta, h]
  exact congrArg (gadd _) (zero_gadd _)

section
variable {m p : Nat} (hv : ConfigIsValid m p 0) {e X : Elem} {d b : Nat}
include hv

theorem gmul_right_cancel {a c y : Elem} (ha : a.toNat < 2 ^ m) (hc : c.toNat < 2 ^ m) (hy : y.toNat < 2 ^ m)
    (h0 : y ≠ 0) (h : gmul (builtGf m p) a y = gmul (builtGf m p) c y) : a = c := by
  rw [← gmul_gdivNz_cancel hv h0 hy ha, h, gmul_gdivNz_cancel hv h0 hy hc]

theorem gpow_ne_zero {a : Elem} (h0 : a ≠ 0) (e : Nat) : gpow (builtGf m p) a e ≠ 0 :=
  ne_zero_of_toNat_eq_alphaPow hv (gpow_toNat hv h0 e)

section
variable (he : e.toNat < 2 ^ m)
include he

theorem errorSyndromes_elems_lt : ∀ y ∈ errorSyndromes (builtGf m p) e X d b, y.toNat < 2 ^ m :=
  List.forall_mem_map.2 fun _ _ => gmul_lt hv he (gpow_lt hv X _)

theorem coef_errorSyndromes_zero_ne_zero (he0 : e ≠ 0) (hX0 : X ≠ 0) (hd : 0 < d) :
    coef (errorSyndromes (builtGf m p) e X d b) 0 ≠ 0 := by
  rw [coef_errorSyndromes _ _ _ _ hd, Ne, gmul_eq_zero_iff hv he (gpow_lt hv X _), not_or]
  exact ⟨he0, gpow_ne_zero hv hX0 _⟩

variable (hX : X.toNat < 2 ^ m)
include hX

/-- Each syndrome is X times the one before it. -/
theorem coef_errorSyndromes_succ {i : Nat} (hi : i + 1 < d) : coef (errorSyndromes (builtGf m p) e X d b) (i + 1) =
    gmul (builtGf m p) X (coef (errorSyndromes (builtGf m p) e X d b) i) := by
  have hpow := gpow_lt hv X (i + b)
  rw [coef_errorSyndromes _ _ _ _ hi, coef_errorSyndromes _ _ _ _ (Nat.lt_of_succ_lt hi), Nat.add_right_comm,
    gpow_succ hv hX, ← gmul_assoc hv he hX hpow, gmul_comm _ e, gmul_assoc hv hX he hpow]

variable (he0 : e ≠ 0) (hX0 : X ≠ 0) (hd : 2 ≤ d)
include he0 hX0 hd

/-- A C of length 1 that generates the first two syndromes is 1 + X·x. -/
theorem coef_one_of_l_one {st : BmState} {n lb : Nat}
    (h : BmGenerates m p (errorSyndromes (builtGf m p) e X d b) n st lb) (hl : st.l = 1) (hn : 2 ≤ n) :
    coef st.c 1 = X := by
  have hS := errorSyndromes_elems_lt hv he (X := X) (d := d) (b := b)
  have hzero := (h.delta_eq hv hl.le hS).trans (h.c_vanishes 1 hl.le hn)
  rw [bmDelta_of_l_one hl, coef_errorSyndromes_succ hv he hX hd, gadd_eq_zero_iff] at hzero
  exact (gmul_right_cancel hv hX (getD_lt h.c_elems 1) (getD_lt hS 0)
    (coef_errorSyndromes_zero_ne_zero hv he he0 hX0 (by omega)) hzero).symm

/-- The first pass sets L to 1, the second keeps it, and from then on the discrepancies are 0. -/
theorem bmPasses_errorSyndromes_l {n : Nat} (hn : n + 1 ≤ d) :
    (bmPasses (builtGf m p) (errorSyndromes (builtGf m p) e X d b) (n + 1)).l = 1 := by
  have hS := errorSyndromes_elems_lt hv he (X := X) (d := d) (b := b)
  induction n with
  | zero =>
    have hdelta : bmDelta (builtGf m p) (errorSyndromes (builtGf m p) e X d b) bmInit 0 ≠ 0 := by
      rw [show bmDelta _ _ bmInit 0 = coef _ 0 from gadd_zero _]
      exact coef_errorSyndromes_zero_ne_zero hv he he0 hX0 (by omega)
    rw [bmPasses_succ, show bmPasses _ _ 0 = bmInit from rfl, bmStep_of_longer hdelta le_rfl]
    rfl
  | succ n ih =>
    have hl := ih (by omega)
    rw [bmPasses_succ]
    by_cases h0 : bmDelta (builtGf m p) (errorSyndromes (builtGf m p) e X d b)
        (bmPasses (builtGf m p) (errorSyndromes (builtGf m p) e X d b) (n + 1)) (n + 1) = 0
    · rw [bmStep_of_delta_zero h0]
      exact hl
    rcases Nat.eq_zero_or_pos n with rfl | hpos
    · rw [bmStep_of_same_length h0 (by rw [hl]; decide)]
      exact hl
    · obtain ⟨lb, h⟩ := exists_bmGenerates hv hS (n + 1)
      refine absurd ?_ h0
      rw [bmDelta_of_l_one hl, coef_one_of_l_one hv he hX he0 hX0 hd h hl (by omega),
        coef_errorSyndromes_succ hv he hX hn, Nat.add_sub_cancel, gadd_self]

theorem bm_errorSyndromes : bm (builtGf m p) (errorSyndromes (builtGf m p) e X d b) = [X, 1] := by
  have hl := bmPasses_errorSyndromes_l hv he hX he0 hX0 hd (b := b) (n := d - 1) (by omega)
  rw [Nat.sub_add_cancel (by omega)] at hl
  obtain ⟨lb, h⟩ := exists_bmGenerates hv (errorSyndromes_elems_lt hv he (X := X) (d := d) (b := b)) d
  have hone := coef_one_of_l_one hv he hX he0 hX0 hd h hl hd
  rw [bm, bmRun_eq, errorSyndromes_length, hl]
  show strip [coef _ 1, coef _ 0] = [X, 1]
  rw [hone, h.c_zero]
  exact List.dropWhile_cons_of_neg (by simpa using hX0)

end

/-! ### Its root and its magnitude (R255, R257 to R262) -/

omit hv in
theorem evalA_linear (F : Gf) (c x : Elem) : evalA F [c, 1] x = gadd (gmul F 1 x) c := by
  rw [evalA_cons, evalA_singleton]

/-- The locator X + x has the one root X, which belongs to the one place of that power of α. -/
theorem chien_linear {n j : Nat} (hj : j < n) (hn : n ≤ groupOrder m) :
    ∃ x : Elem, x.toNat = n - 1 - j ∧ chien (builtGf m p) [alpha (builtGf m p) j, 1] n = ([x], true) := by
  have hcap : n ≤ 65536 := by have := two_pow_le_elem_range hv; rw [groupOrder] at hn; omega
  obtain ⟨hmem, hdecreasing, -⟩ := rootSearchFindsExactlyTheRoots (builtGf m p) [alpha (builtGf m p) j, 1] n hcap
  have hlocs := eq_singleton_of_nodup (a := n - 1 - j) (hdecreasing.imp ne_of_gt) fun q => by
    rw [hmem, evalA_linear, one_gmul hv (alpha_lt hv _), gadd_eq_zero_iff]
    constructor
    · rintro ⟨hq, hroot⟩
      have := alpha_inj hv (by omega) (by omega) hroot
      omega
    · rintro rfl
      exact ⟨by omega, by rw [show n - 1 - (n - 1 - j) = j by omega]⟩
  obtain ⟨x, hx, hxj⟩ := List.map_eq_singleton_iff.1 hlocs
  exact ⟨x, hxj, Prod.ext hx (by rw [chien, ← chien_fst, hx]; rfl)⟩

omit hv in
theorem forneyDenom_singleton (F : Gf) (x : Elem) : forneyDenom F [x] 0 = 1 := rfl

omit hv in
theorem positions_singleton (F : Gf) (n : Nat) (x : Elem) : positions F n [x] = [alpha F (n - 1 - x.toNat)] := rfl

/-- The evaluator of a locator with one root is the first syndrome (R258). -/
theorem omega_linear {S : Poly} (hS : 0 < S.length) (hS0 : (coef S 0).toNat < 2 ^ m) (c : Elem) :
    omega (builtGf m p) S [c, 1] = [coef S 0] := by
  have hmin : min (0 + 1) S.length = 1 := min_eq_left hS
  show [omegaCoef _ S [c, 1] 0] = _
  rw [omegaCoef, hmin]
  exact congrArg (fun y => [y]) ((zero_gadd _).trans (gmul_one hv hS0))

section
variable {j : Nat} {msg ecc : Poly} (he : e.toNat < 2 ^ m)
include he

/-- The magnitude that Forney's formula gives is the error (R260). -/
theorem magnitude_errorSyndromes (hX : X.toNat < 2 ^ m) (hX0 : X ≠ 0) (hd : 0 < d) :
    magnitude (builtGf m p) (omega (builtGf m p) (errorSyndromes (builtGf m p) e X d b) [X, 1]) [X] b 0 = e := by
  have hpow := gpow_lt hv X b
  have hinv := gpow_lt hv (ginvNz (builtGf m p) X) b
  have hS0 := getD_lt (errorSyndromes_elems_lt hv he (X := X) (d := d) (b := b)) 0
  rw [magnitude, omega_linear hv (by simpa using hd) hS0, evalA_singleton, forneyDenom_singleton,
    coef_errorSyndromes _ _ _ _ hd, Nat.zero_add, show coef [X] 0 = X from rfl, gmul_assoc hv he hpow hinv,
    gpow_gmul_gpow_ginvNz hv hX0 hX, gmul_one hv he, gdivNz_one hv he]

theorem forney_errorSyndromes {x : Elem} (hj : j < msg.length + d) (hx : x.toNat = msg.length + d - 1 - j)
    (hd : 0 < d) :
    forney (builtGf m p) msg (errorSyndromes (builtGf m p) e (alpha (builtGf m p) j) d b) [alpha (builtGf m p) j, 1] [x]
      b = .ok (applyAt msg x.toNat e) := by
  have hpos : positions (builtGf m p) (msg.length + d) [x] = [alpha (builtGf m p) j] := by
    rw [positions_singleton, hx, show msg.length + d - 1 - (msg.length + d - 1 - j) = j by omega]
  have hzero : ¬ forneyDividesByZero (builtGf m p) [alpha (builtGf m p) j] :=
    mt (forneyDividesByZero_iff hv (hpos ▸ positions_elems hv)).1 (not_not.2 (List.nodup_singleton _))
  rw [forney_of_not_dividesByZero (by rwa [errorSyndromes_length, hpos]), errorSyndromes_length, hpos]
  exact congrArg (fun y => Except.ok (applyAt msg x.toNat y))
    (magnitude_errorSyndromes hv he (b := b) (alpha_lt hv j) (alpha_ne_zero hv j) hd)

/-- A block with the syndromes of one error has that error taken out of its message (R265). -/
theorem dec_of_syn_eq_errorSyndromes (he0 : e ≠ 0) (hd : 2 ≤ d) (hecc : ecc.length = d)
    (hN : msg.length + d ≤ groupOrder m) (hj : j < msg.length + d)
    (h : syn (builtGf m p) msg ecc d b = errorSyndromes (builtGf m p) e (alpha (builtGf m p) j) d b) :
    dec (builtGf m p) msg ecc d b = .ok (applyAt msg (msg.length + d - 1 - j) e, true, 1) := by
  obtain ⟨x, hx, hroot⟩ := chien_linear hv hj hN
  have hchien : chien (builtGf m p) (bm (builtGf m p) (syn (builtGf m p) msg ecc d b)) (msg.length + ecc.length) =
      ([x], true) := by
    rw [h, hecc, bm_errorSyndromes hv he (alpha_lt hv j) he0 (alpha_ne_zero hv j) hd, hroot]
  have hforney := forney_errorSyndromes hv he (b := b) hj hx (by omega : 0 < d)
  rw [dec_of_rootCount_holds (out := applyAt msg x.toNat e) (by rw [hchien]), hchien, hx]
  · rfl
  · rw [hchien, h, bm_errorSyndromes hv he (alpha_lt hv j) he0 (alpha_ne_zero hv j) hd]
    exact hforney

/-- An error at place i of an encoded block. -/
theorem syn_of_single_error {msg' ecc' : Poly} {i : Nat} (hmsg : ∀ y ∈ msg, y.toNat < 2 ^ m)
    (h : enc (builtGf m p) (gen (builtGf m p) d b) msg = .ok ecc) (hi : i < (msg ++ ecc).length)
    (hbad : msg' ++ ecc' = (msg ++ ecc).set i (gadd ((msg ++ ecc).getD i 0) e)) :
    syn (builtGf m p) msg' ecc' d b =
      errorSyndromes (builtGf m p) e (alpha (builtGf m p) ((msg ++ ecc).length - 1 - i)) d b := by
  have hblock := List.forall_mem_append.2 ⟨hmsg, enc_elems_lt hv hmsg (gen_elems_lt hv d b) h⟩
  rw [syn_eq, hbad, errorSyndromes]
  refine List.map_congr_left fun k hk => ?_
  rw [evalD_set_gadd hv (alpha_lt hv _) (zero_elem_lt m) he hblock hi, Nat.add_comm k b,
    evalD_encoded hv hmsg h (List.mem_range.1 hk), zero_gadd, gpow_alpha_comm hv]

/-- The block of one error, whatever the place, is decoded with one correction. -/
theorem dec_of_single_error {msg' ecc' : Poly} {i : Nat} (he0 : e ≠ 0) (hd : 2 ≤ d)
    (hmsg : ∀ y ∈ msg, y.toNat < 2 ^ m) (h : enc (builtGf m p) (gen (builtGf m p) d b) msg = .ok ecc)
    (hN : msg.length + d ≤ groupOrder m) (hi : i < msg.length + d) (hmsg' : msg'.length = msg.length)
    (hecc' : ecc'.length = d) (hbad : msg' ++ ecc' = (msg ++ ecc).set i (gadd ((msg ++ ecc).getD i 0) e)) :
    dec (builtGf m p) msg' ecc' d b = .ok (applyAt msg' i e, true, 1) := by
  have hlen : (msg ++ ecc).length = msg.length + d := by simp [enc_length _ h]
  have hsyn := syn_of_single_error hv he hmsg h (hi.trans_eq hlen.symm) hbad
  rw [hlen] at hsyn
  rw [dec_of_syn_eq_errorSyndromes hv he he0 hd hecc' (by omega) (by omega) hsyn, hmsg',
    show msg.length + d - 1 - (msg.length + d - 1 - i) = i by omega]

end
end

/-- Adding the error again restores the message. -/
theorem applyAt_set_gadd {msg : Poly} {i : Nat} (hi : i < msg.length) (e : Elem) :
    applyAt (msg.set i (gadd (msg.getD i 0) e)) i e = msg := by
  rw [applyAt, List.length_set, if_pos hi, List.set_set, coef, set_getD hi, if_pos rfl, gadd_assoc, gadd_self,
    gadd_zero, List.getD_eq_getElem _ _ hi, List.set_getElem_self]

theorem applyAt_of_length_le {msg : Poly} {i : Nat} (hi : msg.length ≤ i) (e : Elem) : applyAt msg i e = msg :=
  if_neg (not_lt.2 hi)

theorem set_gadd_elems_lt {m : Nat} {s : Poly} {e : Elem} (hs : ∀ y ∈ s, y.toNat < 2 ^ m) (he : e.toNat < 2 ^ m)
    (i : Nat) : ∀ y ∈ s.set i (gadd (s.getD i 0) e), y.toNat < 2 ^ m := by
  intro y hy
  rcases List.mem_or_eq_of_mem_set hy with hy | rfl
  · exact hs y hy
  · exact gadd_lt (getD_lt hs i) he

/-! ### RSENC and then RSDEC (R267) -/

section
variable {s : State} {pm pe : PReg} (hinv : s.Inv) (hs : s.ready = true) (hg : s.gvalid = true)
include hinv hs hg

/-- The field and the generator of a state that the engine reaches (R27, R40, R41). -/
theorem State.Inv.codec : ConfigIsValid s.mAct.toNat s.polyAct.toNat 0 ∧
    s.gf = builtGf s.mAct.toNat s.polyAct.toNat ∧
    s.gpoly = gen (builtGf s.mAct.toNat s.polyAct.toNat) s.gdeg.toNat s.b := by
  obtain ⟨hvalid, hgf⟩ := hinv.isReady hs
  obtain ⟨-, -, hgen⟩ := hinv.isGen hg
  exact ⟨configIsValid_base_zero ((validConfig_iff _ _ _).1 hvalid), hgf, hgf ▸ hgen⟩

theorem State.Inv.exists_encoded (hrange : s.elemsP pm) (hN : (s.readP pm).length + s.gdeg.toNat ≤ s.q) :
    ∃ ecc, enc (builtGf s.mAct.toNat s.polyAct.toNat) (gen (builtGf s.mAct.toNat s.polyAct.toNat) s.gdeg.toNat s.b)
        (s.readP pm) = .ok ecc ∧ ecc.length = s.gdeg.toNat ∧ (∀ y ∈ ecc, y.toNat < 2 ^ s.mAct.toNat) ∧
      exec (.rsenc pe pm) s = .next (s.writeP pe ecc).finish := by
  obtain ⟨hv, hgf, hgen⟩ := hinv.codec hs hg
  obtain ⟨-, ecc, -, hlen, henc⟩ := hinv.exists_enc_eq hs hg (s.readP pm)
  have hexec := exec_of_ok (i := .rsenc pe pm) (ruleRsenc_ok.2 ⟨hs, hg, hN, elemsOk_poly_iff.2 hrange, ecc, henc, rfl⟩)
  rw [hgf, hgen] at henc
  exact ⟨ecc, henc, hlen, enc_elems_lt hv hrange (gen_elems_lt hv _ _) henc, hexec⟩

/-- RSDEC stores what dec answers, when a command has changed no more than polynomial registers of s. -/
theorem State.Inv.exists_decoded {t : State} (ht : t = { s with pregs := t.pregs, busy := false, done := true })
    {msg ecc out : Poly} {n : Nat} (hmsg : t.readP pm = msg) (hecc : t.readP pe = ecc)
    (hlen : ecc.length = s.gdeg.toNat) (hN : msg.length + s.gdeg.toNat ≤ s.q)
    (hm : ∀ y ∈ msg, y.toNat < 2 ^ s.mAct.toNat) (he : ∀ y ∈ ecc, y.toNat < 2 ^ s.mAct.toNat)
    (hdec : dec (builtGf s.mAct.toNat s.polyAct.toNat) msg ecc s.gdeg.toNat s.b = .ok (out, true, n)) :
    ∃ u, exec (.rsdec pm pe) t = .next u ∧ u.fOk = true ∧ u.errcount = BitVec.ofNat 16 n ∧ u.err = s.err ∧
      u.errovf = s.errovf ∧ u.readP pm = out ∧ (pe ≠ pm → u.readP pe = ecc) := by
  obtain ⟨-, hgf, -⟩ := hinv.codec hs hg
  generalize t.pregs = P at ht
  subst ht hmsg hecc
  rw [← hgf] at hdec
  have hrule := (ruleRsdec_ok (s := { s with pregs := P, busy := false, done := true })).2
    ⟨hs, hg, hlen, (congrArg (_ + ·) hlen).trans_le hN, elemsOk_two_polys_iff.2 ⟨hm, he⟩, _, _, _, hdec, rfl⟩
  exact ⟨_, exec_of_ok (i := .rsdec pm pe) hrule, rfl, rfl, rfl, rfl, readP_writeP_self _ _ _, readP_writeP_ne _ _⟩

/-- RSDEC on the encoded block of `msg` with one error in it, when taking the error out of the message gives `msg`. -/
theorem State.Inv.exists_decoded_single_error {t : State}
    (ht : t = { s with pregs := t.pregs, busy := false, done := true }) {msg ecc : Poly} {i : Nat} {e : Elem}
    (hd : 2 ≤ s.gdeg.toNat) (hmsg : ∀ y ∈ msg, y.toNat < 2 ^ s.mAct.toNat)
    (henc : enc (builtGf s.mAct.toNat s.polyAct.toNat) (gen (builtGf s.mAct.toNat s.polyAct.toNat) s.gdeg.toNat s.b)
      msg = .ok ecc) (hN : msg.length + s.gdeg.toNat ≤ s.q) (hi : i < msg.length + s.gdeg.toNat) (he0 : e ≠ 0)
    (he : e.toNat < 2 ^ s.mAct.toNat)
    (hblock : t.readP pm ++ t.readP pe = (msg ++ ecc).set i (gadd ((msg ++ ecc).getD i 0) e))
    (hmend : applyAt (t.readP pm) i e = msg) :
    ∃ u, exec (.rsdec pm pe) t = .next u ∧ u.fOk = true ∧ u.errcount = 1 ∧ u.err = s.err ∧ u.errovf = s.errovf ∧
      u.readP pm = msg := by
  obtain ⟨hv, -⟩ := hinv.codec hs hg
  have hlen : ecc.length = s.gdeg.toNat := by simp [enc_length _ henc]
  have hm : (t.readP pm).length = msg.length := (applyAt_length _ i e).symm.trans (congrArg List.length hmend)
  have hp : (t.readP pe).length = ecc.length := by
    have := congrArg List.length hblock
    rw [List.length_set, List.length_append, List.length_append, hm] at this
    omega
  have hecc := enc_elems_lt hv hmsg (gen_elems_lt hv _ _) henc
  obtain ⟨hm', hp'⟩ := List.forall_mem_append.1
    (hblock ▸ set_gadd_elems_lt (List.forall_mem_append.2 ⟨hmsg, hecc⟩) he i)
  have hdec := dec_of_single_error hv he he0 hd hmsg henc hN hi hm (hp.trans hlen) hblock
  rw [hmend] at hdec
  obtain ⟨u, hu, hok, hcount, herr, hovf, hout, -⟩ :=
    hinv.exists_decoded hs hg ht rfl rfl (hp.trans hlen) (by rwa [hm]) hm' hp' hdec
  exact ⟨u, hu, hok, hcount, herr, hovf, hout⟩

end

/-- Settles O47: all syndromes of an encoded block are zero, so the locator is 1 and nothing is corrected. -/
theorem encodeThenDecodeRoundTrip : Obligations.EncodeThenDecodeRoundTrip := by
  intro s pm pe hinv hs hg hne hrange hN
  obtain ⟨hv, -⟩ := hinv.codec hs hg
  obtain ⟨ecc, henc, hlen, hecc, hexec⟩ := hinv.exists_encoded (pe := pe) hs hg hrange hN
  have hreadm : (s.writeP pe ecc).finish.readP pm = s.readP pm := readP_writeP_ne s ecc hne
  have hreade : (s.writeP pe ecc).finish.readP pe = ecc := readP_writeP_self s pe ecc
  obtain ⟨u, hdec, hok, hcount, herr, hovf, hmsg, hkeep⟩ := hinv.exists_decoded hs hg rfl hreadm hreade hlen hN hrange
    hecc (dec_of_syn_eq_zeros (syn_encoded hv hrange henc))
  exact ⟨_, u, hexec, hdec, hok, hcount, herr, hovf, hmsg, (hkeep hne.symm).trans hreade.symm⟩

/-- Settles O48: one error makes geometric syndromes, whose locator has the one root of the error's place. The error is
in the message, where the correction takes it out, or in the ECC, and then the message is left as it is. -/
theorem decodeCorrectsEverySingleError : Obligations.DecodeCorrectsEverySingleError := by
  intro s pm pe hinv hs hg hne hrange hN hd
  obtain ⟨ecc, henc, -, -, hexec⟩ := hinv.exists_encoded (pe := pe) hs hg hrange hN
  have hreadm : (s.writeP pe ecc).finish.readP pm = s.readP pm := readP_writeP_ne s ecc hne
  have hreade : (s.writeP pe ecc).finish.readP pe = ecc := readP_writeP_self s pe ecc
  refine ⟨_, hexec, ?_⟩
  intro i e hi he0 he k bad
  by_cases hk : i < (s.readP pm).length
  · have hm : bad.readP pm = (s.readP pm).set i (gadd ((s.readP pm).getD i 0) e) := by
      simp only [bad, k, hk, if_true, hreadm, readP_writeP_self]
    have hp : bad.readP pe = ecc := by
      simp only [bad, k, hk, if_true, readP_writeP_ne _ _ hne.symm, hreade]
    refine hinv.exists_decoded_single_error hs hg (by simp only [bad, k, hk, if_true]; rfl) hd hrange henc hN hi he0 he
      ?_ (by rw [hm, applyAt_set_gadd hk])
    rw [hm, hp, List.set_append_left i _ hk, List.getD_append _ _ _ _ hk]
  · have hm : bad.readP pm = s.readP pm := by
      simp only [bad, k, hk, if_false, readP_writeP_ne _ _ hne, hreadm]
    have hp : bad.readP pe =
        ecc.set (i - (s.readP pm).length) (gadd (ecc.getD (i - (s.readP pm).length) 0) e) := by
      simp only [bad, k, hk, if_false, hreade, readP_writeP_self]
    refine hinv.exists_decoded_single_error hs hg (by simp only [bad, k, hk, if_false]; rfl) hd hrange henc hN hi he0 he
      ?_ (by rw [hm, applyAt_of_length_le (not_lt.1 hk)])
    rw [hm, hp, List.set_append_right i _ (not_lt.1 hk), List.getD_append_right _ _ _ _ (not_lt.1 hk)]

end Sys2Proof.Machine
